-- ==== Sys2Proof/Word.lean ====
section
/-! DEFINITION. The word types of the SQ4: bytes on the SPI lines and the small index types its blocks are numbered by. -/

namespace Sys2Proof

/-- A byte of a frame (chapter 11: eight bits, most significant first). -/
abbrev Byte := BitVec 8

/-- A host port, P0 to P3 (chapter 0, "Names"). -/
abbrev Port := Fin 4

/-- A lamp, L0 to L3 (chapter 0, "Names"). -/
abbrev Lamp := Fin 4

/-- A slot of the Alert Table, 0 to 29 (R1, Table 1.1). -/
abbrev SlotNo := Fin 30

/-- A pattern number, which names one entry of the Pattern Directory, 0 to 31 (R71). -/
abbrev PatNo := Fin 32

end Sys2Proof
end

