-- ==== Sys2Proof/Syntax.lean ====
section
/-! DEFINITION. The commands of the SQ4: one constructor per row of spec/opcode_table.json, in the table's order.
A command is one whole, indivisible step of the part (95_what_each_step_holds.md). Its operands are what the world
outside the part contributes to that step: a port, a pin level, a measured value, or which of several like timers is
taken. What a request carries travels in its frame and is read from the inbound queue. -/

namespace Sys2Proof

/-- What an idle check finds on the sounder loop (R108). -/
inductive Loop where
  | continuity   -- continuity through the transducer
  | noContinuity -- no continuity
  | lowPath      -- a path of far lower resistance than the transducer, or to a supply or to ground
  deriving DecidableEq, Repr

/-- The two buttons whose accepted release has no effect (R93, Table 5.2). -/
inductive PlainButton where
  | ack | silence
  deriving DecidableEq, Repr

/-- The level of a pin. -/
inductive Level where
  | low | high
  deriving DecidableEq, Repr

inductive Instr where
  /-- POWER_ON_RESET: supply is first applied. -/
  | powerOnReset
  /-- PIN_RESET: RESET_N is asserted. -/
  | pinReset
  /-- RESET_END: a reset ends with the straps PROF1 and PROF0 at these levels. -/
  | resetEnd (prof1 prof0 : Level)
  /-- TICK: a 1 ms tick of the Time Base. -/
  | tick
  /-- CLKIN_STOP: CLKIN becomes absent. -/
  | clkinStop
  /-- CLKIN_RESUME: CLKIN returns. -/
  | clkinResume
  /-- STEP_WORD_PARITY_LOSS: the parity of the step word at this index becomes bad. -/
  | stepWordParityLoss (index : Nat)
  /-- CHIP_SELECT_FALL: the port's chip select falls. -/
  | chipSelectFall (p : Port)
  /-- CHIP_SELECT_RISE: the port's chip select rises. -/
  | chipSelectRise (p : Port)
  /-- UNKNOWN_KIND: the Executor takes a request whose kind byte names no request kind. -/
  | unknownKind
  /-- HELLO: the Executor takes a HELLO. -/
  | hello
  /-- BYE: the Executor takes a BYE. -/
  | bye
  /-- SUBSCRIBE: the Executor takes a SUBSCRIBE. -/
  | subscribe
  /-- RAISE: the Executor takes a RAISE. -/
  | raise
  /-- CLEAR: the Executor takes a CLEAR. -/
  | clear
  /-- ACK: the Executor takes an ACK. -/
  | ack
  /-- ACK_ALL: the Executor takes an ACK_ALL. -/
  | ackAll
  /-- SILENCE: the Executor takes a SILENCE. -/
  | silence
  /-- ALERT_INFO: the Executor takes an ALERT_INFO. -/
  | alertInfo
  /-- ALERT_LIST: the Executor takes an ALERT_LIST. -/
  | alertList
  /-- PATTERN_DEFINE: the Executor takes a PATTERN_DEFINE. -/
  | patternDefine
  /-- PATTERN_APPEND: the Executor takes a PATTERN_APPEND. -/
  | patternAppend
  /-- PATTERN_COMMIT: the Executor takes a PATTERN_COMMIT. -/
  | patternCommit
  /-- PATTERN_DELETE: the Executor takes a PATTERN_DELETE. -/
  | patternDelete
  /-- PATTERN_INFO: the Executor takes a PATTERN_INFO. -/
  | patternInfo
  /-- PATTERN_READ: the Executor takes a PATTERN_READ. -/
  | patternRead
  /-- STATUS: the Executor takes a STATUS. -/
  | status
  /-- CONFIG_GET: the Executor takes a CONFIG_GET. -/
  | configGet
  /-- CONFIG_SET: the Executor takes a CONFIG_SET. -/
  | configSet
  /-- STEP_END: the step timer has reached 0. -/
  | stepEnd
  /-- ESCALATION_EXPIRY: the escalation deadline of the record in this slot has reached 0. -/
  | escalationExpiry (slot : Nat)
  /-- MUTE_TIMER_EXPIRY: the mute timer has reached 0. -/
  | muteTimerExpiry
  /-- KEEPALIVE_EXPIRY: the port's keepalive timer has reached 0. -/
  | keepaliveExpiry (p : Port)
  /-- LINE_SAMPLE: the line sample timer expires; `sense` is the sense code a drive sample would measure and
  `loop` what an idle check would find at that moment (R106 to R108). -/
  | lineSample (sense : Byte) (loop : Loop)
  /-- DEBOUNCE_SAMPLE: the levels found on BTN_ACK, BTN_SIL and BTN_TEST at a tick. -/
  | debounceSample (ackPin silencePin testPin : Level)
  /-- PANEL_ACK: an accepted ACK press is handed on. -/
  | panelAck
  /-- PANEL_SILENCE: an accepted SILENCE press is handed on. -/
  | panelSilence
  /-- BUTTON_RELEASE_ACCEPTED: an accepted release of ACK or SILENCE is handed on. -/
  | buttonReleaseAccepted (b : PlainButton)
  /-- LAMP_TEST_BEGIN: an accepted TEST press is handed on. -/
  | lampTestBegin
  /-- LAMP_TEST_END: an accepted TEST release is handed on. -/
  | lampTestEnd
  /-- FLASH_CLOCK_TICK: the flash clock advances at a tick. -/
  | flashClockTick
  /-- SCK_RISING_EDGE: a rising edge of the port's SCK with SDI at this level. -/
  | sckRisingEdge (p : Port) (sdi : Level)
  deriving DecidableEq, Repr

end Sys2Proof
end

