-- ==== Sys2Proof/Decode.lean ====
section
/-! DEFINITION. What a word of the command table spells. spec/opcode_table.json gives no row any bits (98_reader.md:
"n_rows_with_fixed": 0), because the SQ4 is commanded by events on its pins and by frames, not by words of one
encoding. So no word spells a command, and every word is refused. The frames' own decoding is in
Sys2Proof/Machine/Operands.lean. -/

namespace Sys2Proof

/-- The command a word spells by the table's bits: none, since no row of the table has bits. -/
def decodeTableWord (_nbits _w : Nat) : Option Instr := none

end Sys2Proof
end

