-- ==== Sys2Proof/Config.lean ====
section
/-! DEFINITION. The sizes of the part's stores, as the data book fixes them. The data book leaves no value of an
instruction's result open, so there is no free value (no opaque constant) here. -/

namespace Sys2Proof.Config

/-- Slots 0 to 23 are the host slots (R1, Table 1.1). -/
def hostSlots : Nat := 24

/-- The Step Store holds 1024 step words, at indices 0 to 1023 (R70). -/
def stepWords : Nat := 1024

/-- Entries 0 to 27 of the Pattern Directory are user entries (R71). -/
def userPatterns : Nat := 28

end Sys2Proof.Config
end

