-- ==== Sys2Proof/Machine/State.lean ====
section
/-! DEFINITION. The state of the SQ4 as plain data: every piece of state the data book names (INVENTORY.md,
"State", lists each with its rule), the reasons a command can stop, and the state after reset. Fields that a table of
the data book marks optional are carried by the constructor of the state in which they are present. -/

namespace Sys2Proof.Machine

/-- Why a command faults: its operand names a place the part does not have. -/
inductive Fault where
  /-- Raised by ESCALATION_EXPIRY of a slot number above 29: R1 gives the table 30 slots. Safe: the part has no such
  slot, so no such event can happen. -/
  | noSuchSlot
  /-- Raised by STEP_WORD_PARITY_LOSS at an index above 1023: R70 gives the Step Store the indices 0 to 1023. Safe:
  the part has no such word. -/
  | noSuchStepWord
  deriving DecidableEq, Repr

/-- Why a command has no meaning. -/
inductive Refusal where
  /-- A row of the command table whose meaning is not written. No arm of exec answers it. Safe: the machine stops. -/
  | notModelled (mnemonic : String)
  deriving DecidableEq, Repr

/-! ### Parties, handles and alert records (chapter 1) -/

/-- The origin of a record (chapter 0, "Origins and sources"). -/
inductive Origin where
  | host (p : Port)
  | internal
  deriving DecidableEq, Repr

/-- The source of an action (chapter 0, "Origins and sources"). -/
inductive Source where
  | port (p : Port)
  | panel
  | timer
  | internal
  deriving DecidableEq, Repr

/-- Who acknowledged a record: P0 to P3 or PANEL (Table 1.2). -/
inductive AckParty where
  | port (p : Port)
  | panel
  deriving DecidableEq, Repr

/-- A handle: a slot number with a generation (R2). -/
structure Handle where
  slot : SlotNo
  generation : Byte
  deriving DecidableEq, Repr

/-- The origin of an occupied record with its orphaned field, which is present only when the origin is P0 to P3
(Table 1.2). -/
inductive Raiser where
  | host (p : Port) (orphaned : Bool)
  | internal
  deriving DecidableEq, Repr

/-- The sound mode with count n and cycles left, which are present only in COUNTED (Table 1.2). -/
inductive SoundMode where
  | continuous
  | counted (n cyclesLeft : Nat)
  deriving DecidableEq, Repr

/-- The state of an occupied record, with acknowledged-by, which is present only in ACKNOWLEDGED (R4, Table 1.2). -/
inductive RecordState where
  | alerting
  | acknowledged (who : AckParty)
  | returned
  deriving DecidableEq, Repr

/-- The fields of an occupied slot (R3, Table 1.2); bit k of `lamps` stands for lamp Lk, `interval` is in seconds and
`deadline` in milliseconds. -/
structure Record where
  raiser : Raiser
  tag : BitVec 16
  pattern : PatNo
  base : Nat
  ceiling : Nat
  current : Nat
  lamps : BitVec 4
  latching : Bool
  mode : SoundMode
  interval : Nat
  deadline : Option Nat
  state : RecordState
  muted : Bool
  soundDue : Bool
  introDone : Bool
  deriving DecidableEq, Repr

/-- A slot: its generation, and its record while it is occupied (R1 to R3). -/
structure Slot where
  generation : Byte
  record : Option Record
  deriving DecidableEq, Repr

/-! ### The Tone Sequencer's Play Context (chapter 3) -/

/-- The step in the Play Context: pattern number, step index, time left in ms, tone and level (Table 3.1). -/
structure Sounding where
  pattern : PatNo
  index : Nat
  timeLeft : Nat
  tone : BitVec 5
  level : BitVec 2
  deriving DecidableEq, Repr

/-- The Play Context: its state and the fields present in that state (R49, Table 3.1). -/
inductive Play where
  | idle
  | playing (owner : Handle) (now : Sounding)
  | tail (now : Sounding)
  deriving DecidableEq, Repr

/-! ### The Pattern Library (chapter 4) -/

/-- A step of a pattern: tone, level and units (R51). -/
structure Step where
  tone : BitVec 5
  level : BitVec 2
  units : BitVec 6
  deriving DecidableEq, Repr

/-- A step word: a step with its parity bit (R70). -/
structure StepWord where
  step : Step
  parity : Bool
  deriving DecidableEq, Repr

/-- The listed words of the Step Store: (index, word) pairs. -/
abbrev Store := List (Nat × StepWord)

/-- The definer of an entry that is not EMPTY: a port, or `none` for NONE (Table 4.1). -/
abbrev Definer := Option Port

/-- The fields of an entry that is not EMPTY; `start` is absent in the built-in entries (Table 4.1). -/
structure Layout where
  definer : Definer
  start : Option Nat
  length : Nat
  loopIndex : Nat
  pace : Nat
  deriving DecidableEq, Repr

/-- The state of a directory entry with the fields present in it (R71, Table 4.1). -/
inductive EntryBody where
  | empty
  | loading (l : Layout) (fill : Nat)
  | ready (l : Layout)
  | damaged (l : Layout)
  deriving DecidableEq, Repr

/-- A directory entry: its state and fields, and its reference count (R71). -/
structure Entry where
  body : EntryBody
  refs : Nat
  deriving DecidableEq, Repr

/-- A run of Step Store indices (R73). -/
structure Extent where
  start : Nat
  length : Nat
  deriving DecidableEq, Repr

/-! ### The panel, the lamps, the sounder driver and the line monitor (chapters 5 and 6) -/

/-- The debounce state of a button (R92). -/
inductive Debounce where
  | released | pressing | pressed | releasing
  deriving DecidableEq, Repr

/-- A change of a button that the Panel Interface has accepted (R92, R93). -/
inductive Edge where
  | press | release
  deriving DecidableEq, Repr

/-- A button: its debounce state and count (R92), and an accepted change that has not been handed on yet (R93). -/
structure Button where
  state : Debounce
  count : Nat
  accepted : Option Edge
  deriving DecidableEq, Repr

/-- The three buttons (R92). -/
structure Panel where
  ack : Button
  silence : Button
  test : Button
  deriving DecidableEq, Repr

/-- What the Sounder Driver holds while it is ON: frequency in Hz and duty in percent (R104). -/
structure Drive where
  frequency : Nat
  duty : Nat
  deriving DecidableEq, Repr

/-- The kind of a line fault (R109 to R111). -/
inductive FaultKind where
  | openLine | short
  deriving DecidableEq, Repr

/-- The Line Monitor's state: NORMAL with the bad count, or FAULT with its kind and the OK count (section 6.3). The OK
count is 0 throughout NORMAL (R109), and the bad count is 0 throughout FAULT (R110). -/
inductive Line where
  | normal (bad : Nat)
  | fault (kind : FaultKind) (ok : Nat)
  deriving DecidableEq, Repr

/-! ### The host ports (chapters 7 and 9) -/

/-- The session state of a port (section 7.6). -/
inductive Session where
  | closed | opened | lost
  deriving DecidableEq, Repr

/-- The last-outcome of a port (R125). -/
inductive LastOutcome where
  | none | accepted | full | frameError
  deriving DecidableEq, Repr

/-- An admitted request: kind byte, sequence byte and payload (section 7.3). -/
structure Request where
  kind : Byte
  seq : Byte
  payload : List Byte
  deriving DecidableEq, Repr

/-- The status codes of Table 8.3. -/
inductive Status where
  | ok | unknownKind | badLength | notOpen | noRight | badValue | staleHandle | notOwner | tableFull | quota
  | patternNotReady | patternDamaged | noSpace | inUse | wrongState | incomplete | overfill | badStep
  deriving DecidableEq, Repr

/-- A reply: the sequence byte echoed, the status and the payload (R137). -/
structure Reply where
  seq : Byte
  status : Status
  payload : List Byte
  deriving DecidableEq, Repr

/-- What an event about a record says of it (R4, R148). -/
structure RecordRef where
  handle : Handle
  origin : Origin
  tag : BitVec 16
  priority : Nat
  deriving DecidableEq, Repr

/-- The seven record event kinds (Table 9.2). -/
inductive RecordKind where
  | raised | realerted | acked | returned | freed | expired | escalated
  deriving DecidableEq, Repr

/-- The two kinds of the Tone Sequencer's own events (R68). -/
inductive SoundKind where
  | sounding | preempted
  deriving DecidableEq, Repr

/-- An event record, each kind with the fields present in it (R148, Table 9.2). RESOUNDED's source is always
TIMER. -/
inductive Event where
  | record (kind : RecordKind) (about : RecordRef) (source : Source)
  | sound (kind : SoundKind) (about : RecordRef)
  | silenced (source : Source) (level count : Nat)
  | resounded (count : Nat)
  | portState (p : Port) (session : Session) (source : Source)
  | patternState (number : PatNo) (source : Source)
  | overrun (count : Nat)
  deriving DecidableEq, Repr

/-- A port's class mask (R150). -/
structure ClassMask where
  others : Bool
  sound : Bool
  system : Bool
  deriving DecidableEq, Repr

/-- Where the outbound frame of a transaction came from, so that the rise can remove it: `overrun` keeps the count
sent (R152), and `emptied` says that the frame's queue was emptied during the transaction (R120). -/
inductive FrameFrom where
  | reply
  | event
  | overrun (sent : Nat)
  | nothing
  | emptied
  deriving DecidableEq, Repr

/-- A transaction in progress: the bytes fixed at the fall of chip select (the status byte, then the outbound frame),
where the frame came from, the whole bytes received, and the bits of the byte in progress, first bit first. The count
of bytes clocked is the number of whole bytes received (R117, R118). -/
structure Transaction where
  status : Byte
  frame : List Byte
  source : FrameFrom
  received : List Byte
  bits : List Bool
  deriving DecidableEq, Repr

/-- One host port's state (chapter 7's opening table), with the level of its chip select pin (R117, R134). -/
structure PortState where
  session : Session
  keepalive : Option Nat
  inbound : List Request
  replies : List Reply
  events : List Event
  mask : ClassMask
  attention : Bool
  lastOutcome : LastOutcome
  selectLow : Bool
  transaction : Option Transaction
  deriving DecidableEq, Repr

/-! ### The Configuration Table (chapter 10) -/

/-- The thirteen parameters of Table 10.1; `substitute` is `none` for NONE. -/
structure Params where
  keepalive : Nat
  mutePeriod : Nat
  urgent : Nat
  quota : Nat
  portLostPrio : Nat
  sounderFaultPrio : Nat
  storeFaultPrio : Nat
  lineEnable : Bool
  senseLow : Nat
  senseHigh : Nat
  substitute : Option Lamp
  panelEnable : Bool
  profile : Fin 4
  deriving DecidableEq, Repr

/-! ### The whole part -/

/-- The state of the SQ4. The Sounding Order, the damaged count, the lamp outputs, the ATTN lines and the SDO levels
are functions of it (Machine/Flags.lean): the data book says that each is fully determined by what is held here. -/
structure State where
  /-- The 30 record slots (R1). -/
  slots : Vector Slot 30
  /-- The Arrival List, oldest first (R19). -/
  arrival : List SlotNo
  /-- The mute timer: time left in ms, or stopped (R46). -/
  mute : Option Nat
  /-- The Play Context (R49). -/
  play : Play
  /-- The Step Store (R70), in canonical form (Machine/Ops.lean, Store.wf). -/
  store : Store
  /-- The Pattern Directory (R71). -/
  directory : Vector Entry 32
  /-- The Free Extent List (R73). -/
  free : List Extent
  /-- The panel's buttons (R92). -/
  panel : Panel
  /-- The lamp test state is ACTIVE (R96). -/
  lampTest : Bool
  /-- The flash clock's phase, 0 to 999 (R99). -/
  flashPhase : Nat
  /-- The lamp that has the substitute role, which follows the parameter at each tick (R100). -/
  substituteRole : Option Lamp
  /-- The Sounder Driver: OFF, or ON with frequency and duty (R104). -/
  drive : Option Drive
  /-- Milliseconds since the bridge's present run of periods began, counted modulo 10 ms, in which every drive
  frequency makes a whole number of periods (R105). -/
  driveMs : Nat
  /-- The Line Monitor's state (R109). -/
  line : Line
  /-- The line sample timer: time left in ms, or stopped (R106). -/
  lineTimer : Option Nat
  /-- The four host ports (chapter 7). -/
  ports : Vector PortState 4
  /-- The round-robin pointer: the port served last (R135). -/
  pointer : Port
  /-- The Configuration Table (R157). -/
  params : Params
  /-- CLKIN is present (R162). -/
  clkin : Bool
  /-- RESET_N is asserted, or power-on reset has not ended (R162, R138). -/
  inReset : Bool
  /-- The model's own field: the commands that wait, first in, first out. -/
  pending : List Instr
  deriving DecidableEq, Repr

/-! ### The values after reset -/

/-- R27: every slot is FREE with generation 0. -/
def Slot.reset : Slot := { generation := 0, record := none }

/-- R90: every user entry is EMPTY with reference count 0. -/
def Entry.empty : Entry := { body := .empty, refs := 0 }

/-- A built-in entry: READY, definer NONE, loop index 0, no extent start (R67, R71), with the length and pace of
Table 3.5. -/
def Entry.builtIn (length pace : Nat) : Entry :=
  { body := .ready { definer := none, start := none, length := length, loopIndex := 0, pace := pace }, refs := 0 }

/-- R90: the directory at power-on: 28 EMPTY user entries, then the built-in entries of Table 3.5. -/
def State.resetDirectory : Vector Entry 32 :=
  Vector.replicate 28 Entry.empty ++
    #v[Entry.builtIn 2 1, Entry.builtIn 4 1, Entry.builtIn 2 4, Entry.builtIn 3 2]

/-- R102: the button is taken as released, with count 0. -/
def Button.reset : Button := { state := .released, count := 0, accepted := none }

/-- R150: the default class mask, SYSTEM alone. -/
def ClassMask.default : ClassMask := { others := false, sound := false, system := true }

/-- R134, R156: a port at reset, with its chip select pin high. -/
def PortState.reset : PortState :=
  { session := .closed, keepalive := none, inbound := [], replies := [], events := [],
    mask := ClassMask.default, attention := true, lastOutcome := .none,
    selectLow := false, transaction := none }

/-- R157, R163: the defaults of Table 10.1, with the profile given. -/
def Params.default (profile : Fin 4) : Params :=
  { keepalive := 20, mutePeriod := 300, urgent := 6, quota := 12,
    portLostPrio := 5, sounderFaultPrio := 4, storeFaultPrio := 3,
    lineEnable := true, senseLow := 20, senseHigh := 200, substitute := some 3, panelEnable := true,
    profile := profile }

/-- The machine right after a power-on reset has ended (R27, R48, R69, R90, R102, R103, R115, R116, R134, R135, R156,
R163). DESIGN CHOICE, unsafe (log 1): both straps low, so profile 0; every chip select high; CLKIN present; no step
word listed. -/
def State.reset : State :=
  { slots := Vector.replicate 30 Slot.reset
    arrival := []
    mute := none
    play := .idle
    store := []
    directory := State.resetDirectory
    free := [{ start := 0, length := 1024 }]
    panel := { ack := Button.reset, silence := Button.reset, test := Button.reset }
    lampTest := false
    flashPhase := 0
    substituteRole := some 3
    drive := none
    driveMs := 0
    line := .normal 0
    lineTimer := some 100
    ports := Vector.replicate 4 PortState.reset
    pointer := 3
    params := Params.default 0
    clkin := true
    inReset := false
    pending := [] }

end Sys2Proof.Machine
end

