-- ==== Sys2Proof/Machine/Access.lean ====
section
/-! DEFINITION. The one way to read and write each numbered piece of the state: slots, directory entries, ports and
step words. -/

namespace Sys2Proof.Machine

/-- The slot with this number (R1). -/
def State.slot (s : State) (i : SlotNo) : Slot := s.slots[i]

/-- The record in a slot, if it is occupied (R1). -/
def State.record (s : State) (i : SlotNo) : Option Record := (s.slot i).record

/-- The state with one slot replaced. -/
def State.setSlot (s : State) (i : SlotNo) (x : Slot) : State := { s with slots := s.slots.set i x }

/-- The state with the record of one slot replaced; the slot keeps its generation. -/
def State.setRecord (s : State) (i : SlotNo) (r : Record) : State :=
  s.setSlot i { s.slot i with record := some r }

/-- The state with every occupied record changed; the slots keep their generations. -/
def State.mapRecords (s : State) (change : Record → Record) : State :=
  { s with slots := Vector.ofFn (fun i : SlotNo => { s.slot i with record := (s.record i).map change }) }

/-- The directory entry with this number (R71). -/
def State.entry (s : State) (n : PatNo) : Entry := s.directory[n]

/-- The state with one directory entry replaced. -/
def State.setEntry (s : State) (n : PatNo) (e : Entry) : State := { s with directory := s.directory.set n e }

/-- The state of a port (chapter 7). -/
def State.port (s : State) (p : Port) : PortState := s.ports[p]

/-- The state with one port replaced. -/
def State.setPort (s : State) (p : Port) (x : PortState) : State := { s with ports := s.ports.set p x }

/-- The handle that is current for a slot: its number with its generation (R2). -/
def State.handleOf (s : State) (i : SlotNo) : Handle := { slot := i, generation := (s.slot i).generation }

/-- A handle is current when its slot is occupied and holds its generation; any other is stale (R2). -/
def State.isCurrent (s : State) (h : Handle) : Bool :=
  (s.record h.slot).isSome && decide ((s.slot h.slot).generation = h.generation)

/-- The origin of a record (Table 1.2). -/
def Raiser.origin : Raiser → Origin
  | .host p _ => .host p
  | .internal => .internal

/-- The origin of a record (Table 1.2). -/
def Record.origin (r : Record) : Origin := r.raiser.origin

/-! ### The Step Store (R70) -/

/-- What an index that nothing has written reads as. R90 says that such a word holds no defined content and cannot be
read by any request. DESIGN CHOICE, unsafe (log 2): the all-zero word. -/
def Store.unlisted : StepWord := { step := { tone := 0, level := 0, units := 0 }, parity := false }

/-- The step word at an index. -/
def Store.read : Store → Nat → StepWord
  | [], _ => Store.unlisted
  | (a, w) :: rest, i => if i = a then w else Store.read rest i

/-- The store with the word at an index replaced, in canonical form. -/
def Store.write : Store → Nat → StepWord → Store
  | [], i, w => if w = Store.unlisted then [] else [(i, w)]
  | (a, v) :: rest, i, w =>
    if i < a then (if w = Store.unlisted then (a, v) :: rest else (i, w) :: (a, v) :: rest)
    else if i = a then (if w = Store.unlisted then rest else (i, w) :: rest)
    else (a, v) :: Store.write rest i w

/-- The canonical form: indices below 1024 and strictly rising, and no word listed that reads the same unlisted. -/
def Store.wf : Store → Bool
  | [] => true
  | (a, w) :: rest =>
    decide (a < Config.stepWords) && decide (w ≠ Store.unlisted) && rest.all (fun c => decide (a < c.1)) &&
      Store.wf rest

/-- The step word at an index of the Step Store (R70). -/
def State.word (s : State) (i : Nat) : StepWord := s.store.read i

/-- The state with a step word written. The store has no word at an index above 1023, and none is ever addressed,
because every extent lies within the store (R73). -/
def State.setWord (s : State) (i : Nat) (w : StepWord) : State :=
  if i < Config.stepWords then { s with store := s.store.write i w } else s

end Sys2Proof.Machine
end

