-- ==== Sys2Proof/Machine/Operands.lean ====
section
/-! DEFINITION. The byte formats of chapter 11: the CRC, the frames, the codes, the fields of request payloads as the
Request Executor decodes them, and the fields of reply and event payloads as the SQ4 encodes them. -/

namespace Sys2Proof.Machine

/-! ### Numbers as bytes -/

/-- The low eight bits of a number. -/
def byte (n : Nat) : Byte := BitVec.ofNat 8 n

/-- A number of two bytes, most significant byte first (chapter 11). -/
def bytes2 (n : Nat) : List Byte := [byte (n / 256), byte n]

/-- A number of three bytes, most significant byte first. -/
def bytes3 (n : Nat) : List Byte := [byte (n / 65536), byte (n / 256), byte n]

/-- The number two received bytes stand for, most significant byte first. -/
def number2 (hi lo : Byte) : Nat := hi.toNat * 256 + lo.toNat

/-- A flag at bit `k` of a byte, as a summand. -/
def flagBit (b : Bool) (k : Nat) : Nat := if b then 2 ^ k else 0

/-! ### CRC-8 (R165) -/

/-- One shift of the remainder: towards bit 7, combined with 0x07 when bit 7 was 1. -/
def crcShift (r : Byte) : Byte := if r.msb then (r <<< 1) ^^^ 0x07#8 else r <<< 1

/-- One covered byte: exclusive-or, then eight shifts. -/
def crcByte (r b : Byte) : Byte := Nat.iterate crcShift 8 (r ^^^ b)

/-- CRC-8 over the covered bytes, from the initial remainder 0xFF. -/
def crc8 (bytes : List Byte) : Byte := bytes.foldl crcByte 0xFF#8

/-! ### Codes (Tables 11.3, 11.4, 11.6, 11.7, 11.8) -/

def Origin.code : Origin → Byte
  | .host p => byte p.val
  | .internal => 4#8

def Source.code : Source → Byte
  | .port p => byte p.val
  | .internal => 4#8
  | .panel => 5#8
  | .timer => 6#8

def AckParty.code : AckParty → Byte
  | .port p => byte p.val
  | .panel => 5#8

/-- A definer that is present: a port, or 7 for NONE. -/
def definerCode : Definer → Byte
  | some p => byte p.val
  | none => 7#8

def Session.code : Session → Byte
  | .closed => 0#8
  | .opened => 1#8
  | .lost => 2#8

def LastOutcome.code : LastOutcome → Nat
  | .none => 0
  | .accepted => 1
  | .full => 2
  | .frameError => 3

def RecordState.code : RecordState → Byte
  | .alerting => 1#8
  | .acknowledged _ => 2#8
  | .returned => 3#8

/-- The record state code of a slot, FREE included. -/
def slotStateCode (r : Option Record) : Byte :=
  match r with
  | none => 0#8
  | some r => r.state.code

def Status.code : Status → Byte
  | .ok => 0x00#8
  | .unknownKind => 0x01#8
  | .badLength => 0x02#8
  | .notOpen => 0x03#8
  | .noRight => 0x04#8
  | .badValue => 0x05#8
  | .staleHandle => 0x06#8
  | .notOwner => 0x07#8
  | .tableFull => 0x08#8
  | .quota => 0x09#8
  | .patternNotReady => 0x0A#8
  | .patternDamaged => 0x0B#8
  | .noSpace => 0x0C#8
  | .inUse => 0x0D#8
  | .wrongState => 0x0E#8
  | .incomplete => 0x0F#8
  | .overfill => 0x10#8
  | .badStep => 0x11#8

def RecordKind.code : RecordKind → Byte
  | .raised => 0x01#8
  | .realerted => 0x02#8
  | .acked => 0x03#8
  | .returned => 0x04#8
  | .freed => 0x05#8
  | .expired => 0x06#8
  | .escalated => 0x07#8

def SoundKind.code : SoundKind → Byte
  | .sounding => 0x08#8
  | .preempted => 0x09#8

def Event.kindCode : Event → Byte
  | .record k _ _ => k.code
  | .sound k _ => k.code
  | .silenced _ _ _ => 0x0A#8
  | .resounded _ => 0x0B#8
  | .portState _ _ _ => 0x0C#8
  | .patternState _ _ => 0x0D#8
  | .overrun _ => 0x0E#8

/-- The nineteen request kinds the Executor takes (Table 8.4 without NULL). -/
inductive Kind where
  | hello | bye | subscribe | raise | clear | ack | ackAll | silence | alertInfo | alertList
  | patternDefine | patternAppend | patternCommit | patternDelete | patternInfo | patternRead
  | status | configGet | configSet
  deriving DecidableEq, Repr

/-- The kind codes of Table 11.6. -/
def kindCode : Kind → Byte
  | .hello => 0x01#8
  | .bye => 0x02#8
  | .subscribe => 0x03#8
  | .raise => 0x10#8
  | .clear => 0x11#8
  | .ack => 0x12#8
  | .ackAll => 0x13#8
  | .silence => 0x14#8
  | .alertInfo => 0x15#8
  | .alertList => 0x16#8
  | .patternDefine => 0x20#8
  | .patternAppend => 0x21#8
  | .patternCommit => 0x22#8
  | .patternDelete => 0x23#8
  | .patternInfo => 0x24#8
  | .patternRead => 0x25#8
  | .status => 0x30#8
  | .configGet => 0x31#8
  | .configSet => 0x32#8

def allKinds : List Kind :=
  [.hello, .bye, .subscribe, .raise, .clear, .ack, .ackAll, .silence, .alertInfo, .alertList,
   .patternDefine, .patternAppend, .patternCommit, .patternDelete, .patternInfo, .patternRead,
   .status, .configGet, .configSet]

/-- The request kind a kind byte names, if it names one (R140, step 1). -/
def kindOf (b : Byte) : Option Kind := allKinds.find? (fun k => decide (kindCode k = b))

/-- The length byte is right for the kind (R168; R140, step 2). -/
def lengthOk (k : Kind) (payload : List Byte) : Bool :=
  match k with
  | .hello | .bye | .ackAll | .silence | .status => decide (payload.length = 0)
  | .alertList | .patternCommit | .patternDelete | .patternInfo | .configGet => decide (payload.length = 1)
  | .subscribe | .clear | .ack | .alertInfo => decide (payload.length = 2)
  | .patternRead | .configSet => decide (payload.length = 3)
  | .patternDefine => decide (payload.length = 4)
  | .raise => decide (payload.length = 9)
  | .patternAppend =>
    match payload with
    | _ :: k :: _ => decide (payload.length = 2 + 2 * k.toNat)
    | _ => false

/-! ### Outbound frames (R164, R169) -/

/-- The bytes of a handle: slot, then generation (Table 11.4). -/
def Handle.bytes (h : Handle) : List Byte := [byte h.slot.val, h.generation]

/-- A reply frame: 0x01, sequence, status, length, payload, CRC-8 (Table 11.2). -/
def Reply.frame (r : Reply) : List Byte :=
  let body := [0x01#8, r.seq, r.status.code, byte r.payload.length] ++ r.payload
  body ++ [crc8 body]

def RecordRef.bytes (r : RecordRef) : List Byte :=
  r.handle.bytes ++ [r.origin.code] ++ bytes2 r.tag.toNat ++ [byte r.priority]

/-- The payload of an event: the fields present for its kind, in the order of Table 9.1 (R169). -/
def Event.payload : Event → List Byte
  | .record _ about source => about.bytes ++ [source.code]
  | .sound _ about => about.bytes
  | .silenced source level count => [byte level, source.code, byte count]
  | .resounded count => [Source.timer.code, byte count]
  | .portState p session source => [byte p.val] ++ bytes2 session.code.toNat ++ [source.code]
  | .patternState number source => bytes2 number.val ++ [source.code]
  | .overrun count => [byte count]

/-- An event frame: 0x02, event kind, length, payload, CRC-8 (Table 11.2). -/
def Event.frame (e : Event) : List Byte :=
  let body := [0x02#8, e.kindCode, byte e.payload.length] ++ e.payload
  body ++ [crc8 body]

/-- The empty frame (Table 11.2). -/
def emptyFrame : List Byte := [0x00#8]

/-! ### Inbound frames (R121, R122) -/

/-- What the port finds in the bytes received in a transaction. -/
inductive Judgement where
  | frameError
  | nullFrame
  | request (r : Request)
  deriving DecidableEq, Repr

/-- The judgement of the whole bytes received: the checks of R121 in their order, then NULL (R122) and a request.
Bytes after the CRC byte are ignored. -/
def judge (received : List Byte) : Judgement :=
  match received with
  | kind :: seq :: len :: rest =>
    let l := len.toNat
    if rest.length < l + 1 then .frameError
    else if l > 32 then .frameError
    else
      let payload := rest.take l
      if rest[l]? ≠ some (crc8 ([kind, seq, len] ++ payload)) then .frameError
      else if kind = 0 then (if l ≠ 0 then .frameError else .nullFrame)
      else .request { kind := kind, seq := seq, payload := payload }
  | _ => .frameError

/-! ### Fields of request payloads (R167; R140, step 5: `none` is BAD_VALUE) -/

/-- A slot number 0 to 29. -/
def slotField (b : Byte) : Option SlotNo := if h : b.toNat < 30 then some ⟨b.toNat, h⟩ else none

/-- A pattern number 0 to 31. -/
def patternField (b : Byte) : Option PatNo := if h : b.toNat < 32 then some ⟨b.toNat, h⟩ else none

/-- A handle: a slot number in range, with a generation. -/
def handleField (slot generation : Byte) : Option Handle :=
  (slotField slot).map fun i => { slot := i, generation := generation }

/-- What a RAISE carries (R5). -/
structure RaiseFields where
  tag : BitVec 16
  pattern : PatNo
  base : Nat
  ceiling : Nat
  lamps : BitVec 4
  latching : Bool
  mode : SoundMode
  interval : Nat
  deriving DecidableEq, Repr

/-- The RAISE payload of Table 11.5 with the range checks of R5 and R167. -/
def raiseFields (payload : List Byte) : Option RaiseFields :=
  match payload with
  | [tagHi, tagLo, pattern, base, ceiling, lamps, mode, count, interval] =>
    match patternField pattern with
    | none => none
    | some pat =>
      let counted := mode.getLsbD 1
      if base.toNat < 1 ∨ 7 < base.toNat ∨ ceiling.toNat < 1 ∨ 7 < ceiling.toNat ∨ ceiling.toNat < base.toNat then none
      else if 15 < lamps.toNat ∨ 3 < mode.toNat then none
      else if counted = true ∧ count.toNat = 0 then none
      else some
        { tag := BitVec.ofNat 16 (number2 tagHi tagLo), pattern := pat, base := base.toNat, ceiling := ceiling.toNat,
          lamps := BitVec.ofNat 4 lamps.toNat, latching := mode.getLsbD 0,
          mode := if counted then .counted count.toNat count.toNat else .continuous,
          interval := interval.toNat }
  | _ => none

/-- The SUBSCRIBE payload: class mask with bits 7–3 zero, attention 0 or 1 (R150, R167, R168). -/
def subscribeFields (payload : List Byte) : Option (ClassMask × Bool) :=
  match payload with
  | [mask, attention] =>
    if 7 < mask.toNat ∨ 1 < attention.toNat then none
    else some
      ({ others := mask.getLsbD 0, sound := mask.getLsbD 1, system := mask.getLsbD 2 }, decide (attention.toNat = 1))
  | _ => none

/-- The PATTERN_DEFINE payload: number, n, loop index, pace, in their ranges (R76). -/
def defineFields (payload : List Byte) : Option (PatNo × Nat × Nat × Nat) :=
  match payload with
  | [number, n, loopIndex, pace] =>
    match patternField number with
    | none => none
    | some num =>
      if n.toNat < 1 ∨ 128 < n.toNat ∨ n.toNat ≤ loopIndex.toNat ∨ pace.toNat < 1 ∨ 8 < pace.toNat then none
      else some (num, n.toNat, loopIndex.toNat, pace.toNat)
  | _ => none

/-- A step in two bytes; bit 0 of the first byte and bits 7–6 of the second are ignored (Table 11.4). -/
def stepField (first second : Byte) : Step :=
  { tone := first.extractLsb' 3 5, level := first.extractLsb' 1 2, units := second.extractLsb' 0 6 }

/-- The steps in a run of bytes, two bytes each. -/
def stepFields : List Byte → List Step
  | first :: second :: rest => stepField first second :: stepFields rest
  | _ => []

/-- The PATTERN_APPEND payload: number and 1 to 8 steps (R77). -/
def appendFields (payload : List Byte) : Option (PatNo × List Step) :=
  match payload with
  | number :: k :: rest =>
    match patternField number with
    | none => none
    | some num => if k.toNat < 1 ∨ 8 < k.toNat then none else some (num, stepFields rest)
  | _ => none

/-- The PATTERN_READ payload: number, offset 0 to 127, step count 1 to 8 (R82). -/
def readFields (payload : List Byte) : Option (PatNo × Nat × Nat) :=
  match payload with
  | [number, offset, count] =>
    match patternField number with
    | none => none
    | some num =>
      if 127 < offset.toNat ∨ count.toNat < 1 ∨ 8 < count.toNat then none
      else some (num, offset.toNat, count.toNat)
  | _ => none

/-- A payload of one pattern number (PATTERN_COMMIT, PATTERN_DELETE, PATTERN_INFO). -/
def numberField (payload : List Byte) : Option PatNo :=
  match payload with
  | [number] => patternField number
  | _ => none

/-- A payload of one handle (CLEAR, ACK, ALERT_INFO). -/
def handleFields (payload : List Byte) : Option Handle :=
  match payload with
  | [slot, generation] => handleField slot generation
  | _ => none

/-! ### The parameters by identifier (Table 10.1, R158, R159, R168) -/

/-- The value of a parameter as a number: off 0 and on 1; L0 to L3 as 0 to 3 and NONE as 4. -/
def Params.value (c : Params) : Nat → Option Nat
  | 1 => some c.keepalive
  | 2 => some c.mutePeriod
  | 3 => some c.urgent
  | 4 => some c.quota
  | 5 => some c.portLostPrio
  | 6 => some c.sounderFaultPrio
  | 7 => some c.storeFaultPrio
  | 8 => some c.lineEnable.toNat
  | 9 => some c.senseLow
  | 10 => some c.senseHigh
  | 11 => some (match c.substitute with | some k => k.val | none => 4)
  | 12 => some c.panelEnable.toNat
  | 13 => some c.profile.val
  | _ => none

/-- The lamp a substitute lamp value names: 0 to 3 for L0 to L3, otherwise NONE. -/
def lampValue (v : Nat) : Option Lamp := if h : v < 4 then some ⟨v, h⟩ else none

/-- The parameters with one of them written, or `none` where the identifier or the value is out of range or the two
sense thresholds would be out of order (R159). -/
def Params.write (c : Params) (id v : Nat) : Option Params :=
  match id with
  | 1 => if v ≤ 255 then some { c with keepalive := v } else none
  | 2 => if v ≤ 3600 then some { c with mutePeriod := v } else none
  | 3 => if 2 ≤ v ∧ v ≤ 8 then some { c with urgent := v } else none
  | 4 => if 1 ≤ v ∧ v ≤ 24 then some { c with quota := v } else none
  | 5 => if 1 ≤ v ∧ v ≤ 7 then some { c with portLostPrio := v } else none
  | 6 => if 1 ≤ v ∧ v ≤ 7 then some { c with sounderFaultPrio := v } else none
  | 7 => if 1 ≤ v ∧ v ≤ 7 then some { c with storeFaultPrio := v } else none
  | 8 => if v ≤ 1 then some { c with lineEnable := decide (v = 1) } else none
  | 9 => if v ≤ 255 ∧ v ≤ c.senseHigh then some { c with senseLow := v } else none
  | 10 => if v ≤ 255 ∧ c.senseLow ≤ v then some { c with senseHigh := v } else none
  | 11 => if v ≤ 4 then some { c with substitute := lampValue v } else none
  | 12 => if v ≤ 1 then some { c with panelEnable := decide (v = 1) } else none
  | _ => none

/-! ### The larger reply payloads (R168, section 11.4) -/

/-- The orphaned field's two flag bits: present, and its value (Table 1.2: present only for a host origin). -/
def Raiser.orphanBits (r : Raiser) (present value : Nat) : Nat :=
  match r with
  | .host _ orphaned => flagBit true present + flagBit orphaned value
  | .internal => 0

def SoundMode.isCounted : SoundMode → Bool
  | .continuous => false
  | .counted _ _ => true

/-- Count n, or 0 when absent. -/
def SoundMode.count : SoundMode → Nat
  | .continuous => 0
  | .counted n _ => n

/-- Cycles left, or 0 when absent. -/
def SoundMode.left : SoundMode → Nat
  | .continuous => 0
  | .counted _ left => left

/-- Acknowledged-by, or 0xFF when absent. -/
def RecordState.ackedBy : RecordState → Byte
  | .acknowledged who => who.code
  | _ => 0xFF#8

/-- The ALERT_INFO reply payload, 18 bytes (R143). -/
def alertInfoBytes (generation : Byte) (r : Record) : List Byte :=
  [generation, r.origin.code] ++ bytes2 r.tag.toNat ++
  [byte r.pattern.val, byte r.base, byte r.ceiling, byte r.current, byte r.lamps.toNat,
   byte (flagBit r.latching 0 + flagBit r.mode.isCounted 1 + flagBit r.muted 2 + flagBit r.soundDue 3 +
     flagBit r.introDone 4 + r.raiser.orphanBits 5 6),
   byte r.mode.count, byte r.mode.left, byte r.interval] ++
  bytes3 (r.deadline.getD 0) ++ [r.state.code, r.state.ackedBy]

/-- One entry of the ALERT_LIST reply, 9 bytes (R144). -/
def alertListEntry (h : Handle) (r : Record) : List Byte :=
  h.bytes ++ [r.origin.code] ++ bytes2 r.tag.toNat ++
  [r.state.code, byte r.current, byte r.lamps.toNat,
   byte (flagBit r.muted 0 + flagBit r.soundDue 1 + r.raiser.orphanBits 2 3)]

/-- The PATTERN_INFO reply payload, 9 bytes (R81). -/
def patternInfoBytes (e : Entry) : List Byte :=
  let fields (state definer : Byte) (start : Option Nat) (length : Nat) (fill loopIndex : Byte) (pace : Nat) :=
    [state, definer] ++ bytes2 (start.getD 0xFFFF) ++ [byte length, fill, loopIndex, byte pace, byte e.refs]
  match e.body with
  | .empty => fields 0#8 0xFF#8 none 0 0xFF#8 0xFF#8 0
  | .loading l fill => fields 1#8 (definerCode l.definer) l.start l.length (byte fill) (byte l.loopIndex) l.pace
  | .ready l => fields 2#8 (definerCode l.definer) l.start l.length 0xFF#8 (byte l.loopIndex) l.pace
  | .damaged l => fields 3#8 (definerCode l.definer) l.start l.length 0xFF#8 (byte l.loopIndex) l.pace

/-- A step as read, in two bytes: bit 7 of the second is 1 for parity good (Table 11.4). -/
def stepAsRead (st : Step) (good : Bool) : List Byte :=
  [byte (st.tone.toNat * 8 + st.level.toNat * 2), byte (flagBit good 7 + st.units.toNat)]

/-- A handle that may be absent: slot 0xFF and generation 0 when it is (STATUS, section 11.4). -/
def handleOrAbsent : Option Handle → List Byte
  | some h => h.bytes
  | none => [0xFF#8, 0x00#8]

end Sys2Proof.Machine
end

