-- ==== Sys2Proof/Machine/Flags.lean ====
section
/-! DEFINITION. What is fully determined by the state held: step word parity, eligibility and the Sounding Order, the
lamp outputs, the bridge, the port status byte, ATTN and SDO, event classes and rights. -/

namespace Sys2Proof.Machine

/-! ### Parity of a step word (R70) -/

/-- The number of one bits of a step word: the tone, the level, the units and the parity bit together. -/
def StepWord.ones (w : StepWord) : Nat :=
  (List.range 5).countP (fun k => w.step.tone.getLsbD k) + (List.range 2).countP (fun k => w.step.level.getLsbD k) +
    (List.range 6).countP (fun k => w.step.units.getLsbD k) + w.parity.toNat

/-- Good parity: the number of one bits is even. -/
def StepWord.good (w : StepWord) : Bool := w.ones % 2 == 0

/-- The step word the library writes for a step: its parity bit makes the number of one bits even. -/
def Step.word (st : Step) : StepWord :=
  { step := st, parity := StepWord.ones { step := st, parity := false } % 2 == 1 }

/-- A step word whose parity a fault of the store has made bad, its content kept: the parity bit is turned where the
parity was good, and a word whose parity is bad already keeps it (R70; DEDUCED, log 3). -/
def StepWord.spoiled (w : StepWord) : StepWord := if w.good then { w with parity := !w.parity } else w

/-! ### Built-in patterns (R67, Table 3.6) -/

/-- The steps of a built-in pattern, as (tone, level, units). -/
def builtInSteps (n : PatNo) : List Step :=
  let step (tone level units : Nat) : Step :=
    { tone := BitVec.ofNat 5 tone, level := BitVec.ofNat 2 level, units := BitVec.ofNat 6 units }
  match n.val with
  | 28 => [step 12 3 50, step 0 0 50]
  | 29 => [step 20 3 20, step 0 0 20, step 20 3 20, step 0 0 60]
  | 30 => [step 8 2 5, step 0 0 50]
  | 31 => [step 16 2 10, step 10 2 10, step 0 0 60]
  | _ => []

/-- Patterns 28 to 31 are built in (R67). -/
def isBuiltIn (n : PatNo) : Bool := decide (Config.userPatterns ≤ n.val)

/-- The step at an index of a built-in pattern. No load names an index at or above the length (R57 to R59); a rest of
1 unit stands there. -/
def builtInStep (n : PatNo) (index : Nat) : Step := (builtInSteps n).getD index { tone := 0, level := 0, units := 1 }

/-- The duration of a step in ms: units × 10 ms × pace (R52). -/
def Step.duration (st : Step) (pace : Nat) : Nat := st.units.toNat * 10 * pace

/-! ### The directory (R71, R86) -/

/-- The fields of an entry that is not EMPTY. -/
def EntryBody.layout : EntryBody → Option Layout
  | .empty => none
  | .loading l _ => some l
  | .ready l => some l
  | .damaged l => some l

def EntryBody.isDamaged : EntryBody → Bool
  | .damaged _ => true
  | _ => false

/-- The numbers of the user entries, in ascending order. -/
def userNumbers : List PatNo := (List.finRange 32).filter (fun n => !isBuiltIn n)

/-- The user entries in DAMAGED state, in ascending order. -/
def State.damagedNumbers (s : State) : List PatNo := userNumbers.filter (fun n => (s.entry n).body.isDamaged)

/-- The damaged count (R86). -/
def State.damagedCount (s : State) : Nat := s.damagedNumbers.length

/-- The free step total (R73). -/
def State.freeTotal (s : State) : Nat := (s.free.map Extent.length).sum

/-- The largest free extent, or 0 (R73). -/
def State.freeLargest (s : State) : Nat := (s.free.map Extent.length).foldl Nat.max 0

/-! ### Eligibility and the Sounding Order (R28, R29) -/

def Record.isAlerting (r : Record) : Bool := decide (r.state = .alerting)

/-- Eligible to sound: ALERTING, not muted and sound due (R28). -/
def Record.eligible (r : Record) : Bool := r.isAlerting && !r.muted && r.soundDue

/-- The record in the slot is eligible to sound. -/
def State.eligible (s : State) (i : SlotNo) : Bool := (s.record i).any Record.eligible

/-- The current priority of the record in a slot, 0 where the slot is FREE. -/
def State.priority (s : State) (i : SlotNo) : Nat := ((s.record i).map Record.current).getD 0

/-- The place of a slot in a list ranked by priority, after every slot of equal or higher priority. -/
def insertRanked (prio : SlotNo → Nat) (i : SlotNo) : List SlotNo → List SlotNo
  | [] => [i]
  | j :: rest => if prio i ≤ prio j then j :: insertRanked prio i rest else i :: j :: rest

/-- The Sounding Order: the eligible records by current priority from highest, then by Arrival List position (R29). -/
def State.order (s : State) : List SlotNo :=
  (s.arrival.filter s.eligible).foldl (fun ranked i => insertRanked s.priority i ranked) []

/-- The head H of the Sounding Order (R29). -/
def State.head (s : State) : Option SlotNo := s.order.head?

/-- A priority is urgent at or above the urgent threshold (R43). -/
def State.isUrgent (s : State) (priority : Nat) : Bool := decide (s.params.urgent ≤ priority)

/-- The handle is that of an eligible record: the owner has not left the Sounding Order (R50). -/
def State.ownerStands (s : State) (h : Handle) : Bool :=
  decide ((s.slot h.slot).generation = h.generation) && s.eligible h.slot

/-- While PLAYING: H differs from O and H's priority is greater than O's (R38, R39). -/
def State.headAbove (s : State) (owner : Handle) : Bool :=
  match s.head with
  | some i => decide (i ≠ owner.slot) && decide (s.priority owner.slot < s.priority i)
  | none => false

/-- The Sounding Order has an urgent head (R43). -/
def State.headUrgent (s : State) : Bool := s.head.any (fun i => s.isUrgent (s.priority i))

/-! ### The sounder (R51, R104, R105) -/

/-- The step in the Play Context, in PLAYING and TAIL. -/
def Play.now : Play → Option Sounding
  | .idle => none
  | .playing _ now => some now
  | .tail now => some now

/-- The Play Context is PLAYING or TAIL with a tone from 1 to 31 (R100, R104). -/
def Play.sounds (play : Play) : Bool := play.now.any (fun now => decide (now.tone ≠ 0))

/-- The drive frequency of a tone: 200 + 100 × t Hz (R51). -/
def toneFrequency (tone : BitVec 5) : Nat := 200 + 100 * tone.toNat

/-- The drive duty of a level, in percent (R51). -/
def levelDuty (level : BitVec 2) : Nat := 25 * (level.toNat + 1)

def Line.isFault : Line → Bool
  | .normal _ => false
  | .fault _ _ => true

/-- FAULT with kind SHORT. -/
def Line.isShort : Line → Bool
  | .fault .short _ => true
  | _ => false

/-- The drive the inputs call for: ON while the Play Context holds a tone and the Line Monitor is not in FAULT with
kind SHORT (R104). -/
def wantedDrive (play : Play) (line : Line) : Option Drive :=
  match play.now with
  | none => none
  | some now =>
    if now.tone = 0 ∨ line.isShort = true then none
    else some { frequency := toneFrequency now.tone, duty := levelDuty now.level }

/-- The levels of SND_A and SND_B at an instant `us` microseconds after a period began: each half-period conducts for
the duty fraction from its beginning, SND_A high in the first and SND_B high in the second (R105). -/
def Drive.outputs (d : Drive) (us : Nat) : Level × Level :=
  let place := us * d.frequency % 1000000
  if place < 500000 then (if place * 100 < d.duty * 500000 then (.high, .low) else (.low, .low))
  else (if (place - 500000) * 100 < d.duty * 500000 then (.low, .high) else (.low, .low))

/-- The bridge outputs SND_A and SND_B, `us` microseconds into the present millisecond: both low while the drive state
is OFF (R105, R115). -/
def State.bridge (s : State) (us : Nat) : Level × Level :=
  match s.drive with
  | none => (.low, .low)
  | some d => d.outputs (s.driveMs * 1000 + us)

/-! ### The lamps (R97, R99, R100, R101, R103) -/

/-- The indication of a lamp (R97). -/
inductive Indication where
  | fast | slow | steady | off
  deriving DecidableEq, Repr

/-- The records considered for a lamp: the occupied records whose lamp mask includes it (R97). -/
def State.considered (s : State) (k : Lamp) : List Record :=
  (List.finRange 30).filterMap (fun i => (s.record i).filter (fun r => r.lamps.getLsbD k.val))

/-- The indication of a lamp: the first that applies (R97). -/
def State.indication (s : State) (k : Lamp) : Indication :=
  let records := s.considered k
  if records.any Record.isAlerting then .fast
  else if records.any (fun r => decide (r.state = .returned)) then .slow
  else if records.isEmpty then .off
  else .steady

/-- Whether a lamp with this indication is lit at this phase of the flash clock (R99). -/
def Indication.litAt : Indication → Nat → Bool
  | .fast, phase => decide (phase % 250 < 125)
  | .slow, phase => decide (phase < 500)
  | .steady, _ => true
  | .off, _ => false

/-- The lamp is the substitute lamp and is engaged: it has the role, and the Line Monitor is in FAULT (R100). -/
def State.engaged (s : State) (k : Lamp) : Bool := s.line.isFault && decide (s.substituteRole = some k)

/-- A lamp output (R101); every lamp is dark while a reset lasts (R103). -/
def State.lampLit (s : State) (k : Lamp) : Bool :=
  if s.inReset then false
  else if s.lampTest then true
  else if s.engaged k then s.play.sounds
  else (s.indication k).litAt s.flashPhase

/-! ### The ports (R117, R125, R154, R166) -/

/-- The port status byte as it stands (R117, R125, R166). -/
def PortState.statusByte (x : PortState) : Byte :=
  byte (x.session.code.toNat * 64 + x.lastOutcome.code * 16 + flagBit (!x.replies.isEmpty) 3 +
    flagBit (!x.events.isEmpty) 2)

/-- The outbound frame the port selects and where it comes from: the head reply, else the head event, else the empty
frame (R119). -/
def PortState.outbound (x : PortState) : List Byte × FrameFrom :=
  match x.replies, x.events with
  | r :: _, _ => (r.frame, .reply)
  | [], .overrun count :: _ => ((Event.overrun count).frame, .overrun count)
  | [], e :: _ => (e.frame, .event)
  | [], [] => (emptyFrame, .nothing)

/-- ATTN of a port is asserted (low): the port is OPEN, and a reply waits, or an event waits with event attention on
(R154). -/
def State.attention (s : State) (p : Port) : Bool :=
  decide ((s.port p).session = .opened) &&
    (!(s.port p).replies.isEmpty || (!(s.port p).events.isEmpty && (s.port p).attention))

/-- The byte the transaction sends next: the status byte, then the outbound frame, then 0x00 (R117). -/
def Transaction.sending (t : Transaction) : Byte := (t.status :: t.frame).getD t.received.length 0x00#8

/-- SDO of a port: the bit the next rising edge of SCK will carry, most significant first, or high impedance outside a
transaction (R117). -/
def State.sdo (s : State) (p : Port) : Option Bool :=
  (s.port p).transaction.map (fun t => t.sending.getLsbD (7 - t.bits.length))

/-- The sum of R124: requests in the inbound queue plus replies in the reply queue. -/
def PortState.load (x : PortState) : Nat := x.inbound.length + x.replies.length

/-! ### Event classes (R149) -/

/-- The class of an event for a port. -/
inductive EventClass where
  | own | others | sound | system
  deriving DecidableEq, Repr

/-- The class an event has for a port (R149); OVERRUN has none and is never posted. -/
def Event.classFor (e : Event) (p : Port) : EventClass :=
  match e with
  | .record _ about _ =>
    match about.origin with
    | .host q => if q = p then .own else .others
    | .internal => .system
  | .sound _ _ | .silenced _ _ _ | .resounded _ => .sound
  | .portState _ _ _ | .patternState _ _ | .overrun _ => .system

/-- The mask admits the class; OWN is admitted whatever it holds (R149). -/
def ClassMask.admits (m : ClassMask) : EventClass → Bool
  | .own => true
  | .others => m.others
  | .sound => m.sound
  | .system => m.system

/-- The event is offered to the port: the port is OPEN, and it is not the port whose session a PORT_STATE reports
(R149). -/
def PortState.offered (x : PortState) (p : Port) (e : Event) : Bool :=
  decide (x.session = .opened) &&
    match e with
    | .portState q _ _ => decide (q ≠ p)
    | _ => true

def Event.isOverrun : Event → Bool
  | .overrun _ => true
  | _ => false

/-! ### Rights (R138, R139) -/

/-- The four rights (R139). -/
structure Rights where
  r : Bool
  a : Bool
  p : Bool
  c : Bool
  deriving DecidableEq, Repr

/-- The rights a profile gives a port (Table 8.1). -/
def rightsOf (profile : Fin 4) (port : Port) : Rights :=
  let all : Rights := { r := true, a := true, p := true, c := true }
  let ra : Rights := { r := true, a := true, p := false, c := false }
  match profile.val, port.val with
  | 0, _ => all
  | 1, 0 => all
  | 1, _ => ra
  | 2, 0 => all
  | 2, 1 => { r := true, a := true, p := true, c := false }
  | 2, _ => { r := true, a := false, p := false, c := false }
  | _, 0 => all
  | _, 1 => all
  | _, _ => ra

/-- The rights of a port under the profile in force (R138). -/
def State.rights (s : State) (p : Port) : Rights := rightsOf s.params.profile p

/-- The rights byte: bit 0 R, bit 1 A, bit 2 P, bit 3 C (Table 11.4). -/
def Rights.code (x : Rights) : Byte := byte (flagBit x.r 0 + flagBit x.a 1 + flagBit x.p 2 + flagBit x.c 3)

end Sys2Proof.Machine
end

