-- ==== Sys2Proof/Machine/Ops.lean ====
section
/-! DEFINITION. The shared operations on one block each: posting events, the ports' queues and timers, the Play
Context and the Line Monitor with the drive that follows them, the Free Extent List, reference counts, and the changes
of an alert record. The Output Arbiter's decisions and the step loads are in Machine/Arbiter.lean. -/

namespace Sys2Proof.Machine

/-! ### Posting events (R147 to R151) -/

/-- One more event lost, counted into the OVERRUN entry; at 255 the count stays (R151). -/
def Event.countLost : Event → Event
  | .overrun count => .overrun (if count < 255 then count + 1 else count)
  | e => e

/-- An admitted event acts on an event queue (R151). -/
def enqueueEvent (queue : List Event) (e : Event) : List Event :=
  if queue.any Event.isOverrun then queue.map Event.countLost
  else if queue.length < 15 then queue ++ [e]
  else queue ++ [.overrun 1]

/-- An event is offered to a port and admitted by its class, or passed by (R149). -/
def PortState.offer (x : PortState) (p : Port) (e : Event) : PortState :=
  if x.offered p e && x.mask.admits (e.classFor p) then { x with events := enqueueEvent x.events e } else x

/-- An event is posted: it is offered to every port (R149). -/
def State.post (s : State) (e : Event) : State :=
  { s with ports := Vector.ofFn (fun p : Port => (s.port p).offer p e) }

/-! ### Port queues, timers and sessions -/

/-- The Executor's reply joins the port's reply queue (R136). -/
def State.postReply (s : State) (p : Port) (r : Reply) : State :=
  s.setPort p { s.port p with replies := (s.port p).replies ++ [r] }

/-- The frame being sent is no longer in its queue when its queue is emptied (R120). -/
def FrameFrom.afterEventsEmptied : FrameFrom → FrameFrom
  | .event => .emptied
  | .overrun _ => .emptied
  | f => f

/-- The port's event queue is emptied (R153). -/
def PortState.emptyEvents (x : PortState) : PortState :=
  { x with events := [],
           transaction := x.transaction.map (fun t => { t with source := t.source.afterEventsEmptied }) }

/-- The port's three queues are emptied (R132). -/
def PortState.emptyQueues (x : PortState) : PortState :=
  { x with inbound := [], replies := [], events := [],
           transaction := x.transaction.map (fun t =>
             { t with source := match t.source with | .nothing => .nothing | _ => .emptied }) }

/-- A keepalive timer started or restarted from the parameter as it stands: 100 ms a unit, and stopped at 0 (R131). -/
def Params.keepaliveStart (c : Params) : Option Nat := if c.keepalive = 0 then none else some (c.keepalive * 100)

/-- The port opens: state OPEN, event queue emptied, default subscription, keepalive started (R127, steps 1 to 3). -/
def State.openSession (s : State) (p : Port) : State :=
  s.setPort p
    { (s.port p).emptyEvents with
      session := .opened, mask := ClassMask.default, attention := true, keepalive := s.params.keepaliveStart }

/-- The port's session ends: state CLOSED, event queue emptied, keepalive stopped (R130, steps 1 to 3). -/
def State.closeSession (s : State) (p : Port) : State :=
  s.setPort p { (s.port p).emptyEvents with session := .closed, keepalive := none }

/-- The port is lost: state LOST, keepalive stopped, all three queues emptied (R132, steps 1 and 2). -/
def State.loseSession (s : State) (p : Port) : State :=
  s.setPort p { (s.port p).emptyQueues with session := .lost, keepalive := none }

/-! ### The Play Context and the Line Monitor, with the drive (R104, R105) -/

/-- The Sounder Driver takes the drive its inputs call for; a new period begins when the drive becomes ON or its
frequency or duty changes (R104, R105). -/
def State.followDrive (s : State) : State :=
  let wanted := wantedDrive s.play s.line
  if wanted = s.drive then s else { s with drive := wanted, driveMs := 0 }

/-- The Play Context changes, and the drive follows. -/
def State.setPlay (s : State) (play : Play) : State := State.followDrive { s with play := play }

/-- The Line Monitor's state changes, and the drive follows. -/
def State.setLine (s : State) (line : Line) : State := State.followDrive { s with line := line }

/-- A cut: the context becomes IDLE (R61). -/
def State.cut (s : State) : State := s.setPlay .idle

/-- A release: the owner is removed and the sounding step goes on as a tail (R62). -/
def State.release (s : State) : State :=
  match s.play with
  | .playing _ now => s.setPlay (.tail now)
  | _ => s

/-! ### The Free Extent List (R74, R75) -/

/-- First fit: the start of the first n indices of the first free extent long enough, and the list that remains. -/
def firstFit (n : Nat) : List Extent → Option (Nat × List Extent)
  | [] => none
  | x :: rest =>
    if n < x.length then some (x.start, { start := x.start + n, length := x.length - n } :: rest)
    else if n = x.length then some (x.start, rest)
    else (firstFit n rest).map (fun found => (found.1, x :: found.2))

/-- A freed extent enters the list at the place its start gives it and merges with its neighbours (R75). -/
def insertExtent (e : Extent) : List Extent → List Extent
  | [] => [e]
  | x :: rest =>
    if x.start + x.length < e.start then x :: insertExtent e rest
    else if x.start + x.length = e.start then
      insertExtent { start := x.start, length := x.length + e.length } rest
    else if e.start + e.length = x.start then { start := e.start, length := e.length + x.length } :: rest
    else e :: x :: rest

/-! ### Reference counts (R13, R83) -/

/-- A record takes a pattern: its entry's reference count rises by one. -/
def State.takeRef (s : State) (n : PatNo) : State := s.setEntry n { s.entry n with refs := (s.entry n).refs + 1 }

/-- A record drops a pattern: its entry's reference count falls by one. -/
def State.dropRef (s : State) (n : PatNo) : State := s.setEntry n { s.entry n with refs := (s.entry n).refs - 1 }

/-! ### Changes of an alert record (chapter 1) -/

/-- What an event says of the record r in slot i (R4). -/
def State.refTo (s : State) (i : SlotNo) (r : Record) : RecordRef :=
  { handle := s.handleOf i, origin := r.origin, tag := r.tag, priority := r.current }

/-- A record event about the record r in slot i. -/
def State.postRecord (s : State) (kind : RecordKind) (i : SlotNo) (r : Record) (source : Source) : State :=
  s.post (.record kind (s.refTo i r) source)

/-- The deadline a record starts with: the interval in ms where the interval is non-zero and the current priority is
below the ceiling (R14). -/
def startedDeadline (interval current ceiling : Nat) : Option Nat :=
  if interval ≠ 0 ∧ current < ceiling then some (interval * 1000) else none

/-- The record a RAISE or an internal raise creates, and what a re-alert makes of one (R5, R7, R21). -/
def freshRecord (raiser : Raiser) (f : RaiseFields) : Record :=
  { raiser := raiser, tag := f.tag, pattern := f.pattern, base := f.base, ceiling := f.ceiling, current := f.base,
    lamps := f.lamps, latching := f.latching, mode := f.mode, interval := f.interval,
    deadline := startedDeadline f.interval f.base f.ceiling,
    state := .alerting, muted := false, soundDue := true, introDone := false }

/-- A new record in a FREE slot: it joins the tail of the Arrival List, its pattern's reference count rises, and
RAISED is posted (R5, R21). -/
def State.createRecord (s : State) (i : SlotNo) (raiser : Raiser) (f : RaiseFields) (source : Source) : State :=
  let r := freshRecord raiser f
  let s1 := State.takeRef { s.setRecord i r with arrival := s.arrival ++ [i] } f.pattern
  s1.postRecord .raised i r source

/-- A re-alert: the record takes the parameters afresh and moves to the tail of the Arrival List, the reference counts
follow its pattern, and REALERTED is posted (R7, R21). -/
def State.realertRecord (s : State) (i : SlotNo) (old : Record) (f : RaiseFields) (source : Source) : State :=
  let r := freshRecord old.raiser f
  let s1 := { s.setRecord i r with arrival := s.arrival.erase i ++ [i] }
  let s2 := if f.pattern = old.pattern then s1 else (s1.dropRef old.pattern).takeRef f.pattern
  s2.postRecord .realerted i r source

/-- Freeing: FREED is posted with the handle before it, the record leaves the Arrival List, its pattern's reference
count falls, and the slot becomes FREE with its generation advanced (R12, R2). -/
def State.freeRecord (s : State) (i : SlotNo) (source : Source) : State :=
  match s.record i with
  | none => s
  | some r =>
    let s1 := s.postRecord .freed i r source
    let s2 := State.dropRef { s1 with arrival := s1.arrival.erase i } r.pattern
    s2.setSlot i { generation := (s2.slot i).generation + 1, record := none }

/-- An ALERTING record becomes RETURNED: its deadline stops and RETURNED is posted (R9, R22, R24). -/
def State.returnRecord (s : State) (i : SlotNo) (r : Record) (source : Source) : State :=
  let r' := { r with state := .returned, deadline := none }
  (s.setRecord i r').postRecord .returned i r' source

/-- The source that an acknowledgement's party names. -/
def AckParty.source : AckParty → Source
  | .port p => .port p
  | .panel => .panel

/-- One record is acknowledged: ALERTING becomes ACKNOWLEDGED, RETURNED is freed, ACKNOWLEDGED does not change (R10,
R11). -/
def State.acknowledge (s : State) (i : SlotNo) (who : AckParty) : State :=
  match s.record i with
  | none => s
  | some r =>
    match r.state with
    | .alerting =>
      let r' := { r with state := .acknowledged who, deadline := none, muted := false }
      (s.setRecord i r').postRecord .acked i r' who.source
    | .returned => s.freeRecord i who.source
    | .acknowledged _ => s

/-- Every occupied record is acknowledged, oldest first (R11). -/
def State.acknowledgeAll (s : State) (who : AckParty) : State :=
  s.arrival.foldl (fun t i => t.acknowledge i who) s

/-- The condition of a host record has gone: ALERTING becomes RETURNED when latching and is freed otherwise,
ACKNOWLEDGED is freed, RETURNED does not change (R9). -/
def State.clearRecord (s : State) (i : SlotNo) (source : Source) : State :=
  match s.record i with
  | none => s
  | some r =>
    match r.state with
    | .alerting => if r.latching then s.returnRecord i r source else s.freeRecord i source
    | .acknowledged _ => s.freeRecord i source
    | .returned => s

/-- One record of a closing port: freed where it is not latching or is ACKNOWLEDGED; a latching ALERTING record becomes
RETURNED; a latching RETURNED record does not change (R24). -/
def State.closeRecord (s : State) (p : Port) (i : SlotNo) : State :=
  match s.record i with
  | none => s
  | some r =>
    if r.origin ≠ .host p then s
    else if r.latching = false then s.freeRecord i (.port p)
    else
      match r.state with
      | .alerting => s.returnRecord i r (.port p)
      | .acknowledged _ => s.freeRecord i (.port p)
      | .returned => s

/-- The records of a closing port, in Arrival List order (R24). -/
def State.closeRecords (s : State) (p : Port) : State := s.arrival.foldl (fun t i => t.closeRecord p i) s

/-- The orphaned field of a host record of port p set; any other record as it is. -/
def Record.setOrphaned (r : Record) (p : Port) (orphaned : Bool) : Record :=
  match r.raiser with
  | .host q _ => if q = p then { r with raiser := .host q orphaned } else r
  | .internal => r

/-- The orphaned field of every record with origin p set: orphaning and adoption (R25, R26). -/
def State.setOrphans (s : State) (p : Port) (orphaned : Bool) : State :=
  s.mapRecords (fun r => r.setOrphaned p orphaned)

/-! ### Internal records (R20 to R22, Table 1.5) -/

/-- The slot of PORT_LOST for a port (Table 1.1). -/
def portLostSlot (p : Port) : SlotNo := ⟨24 + p.val, by omega⟩

/-- The slot of SOUNDER_FAULT (Table 1.1). -/
def sounderFaultSlot : SlotNo := 28

/-- The slot of STORE_FAULT (Table 1.1). -/
def storeFaultSlot : SlotNo := 29

/-- The parameters of PORT_LOST (Table 1.5). -/
def State.portLostFields (s : State) (p : Port) : RaiseFields :=
  { tag := BitVec.ofNat 16 p.val, pattern := 29, base := s.params.portLostPrio, ceiling := s.params.portLostPrio,
    lamps := 0b0100#4, latching := true, mode := .continuous, interval := 0 }

/-- The tag of a SOUNDER_FAULT: 1 for OPEN, 2 for SHORT (Table 1.5). -/
def FaultKind.tag : FaultKind → BitVec 16
  | .openLine => 1#16
  | .short => 2#16

/-- The parameters of SOUNDER_FAULT (Table 1.5). -/
def State.sounderFaultFields (s : State) (kind : FaultKind) : RaiseFields :=
  { tag := kind.tag, pattern := 30, base := s.params.sounderFaultPrio, ceiling := s.params.sounderFaultPrio,
    lamps := 0b1000#4, latching := true, mode := .counted 3 3, interval := 0 }

/-- The parameters of STORE_FAULT (Table 1.5). -/
def State.storeFaultFields (s : State) (number : PatNo) : RaiseFields :=
  { tag := BitVec.ofNat 16 number.val, pattern := 31, base := s.params.storeFaultPrio, ceiling := s.params.storeFaultPrio,
    lamps := 0b1000#4, latching := true, mode := .counted 3 3, interval := 0 }

/-- An internal raise, with whether it changed the record: a FREE slot gets a record, an ALERTING one does not change,
an ACKNOWLEDGED or RETURNED one is re-alerted (R21). -/
def State.internalRaise (s : State) (i : SlotNo) (f : RaiseFields) : State × Bool :=
  match s.record i with
  | none => (s.createRecord i .internal f .internal, true)
  | some r => if r.isAlerting then (s, false) else (s.realertRecord i r f .internal, true)

/-- An internal return, with whether it changed the record: ALERTING becomes RETURNED, ACKNOWLEDGED is freed, a
RETURNED or FREE slot does not change (R22). -/
def State.internalReturn (s : State) (i : SlotNo) : State × Bool :=
  match s.record i with
  | none => (s, false)
  | some r =>
    match r.state with
    | .alerting => (s.returnRecord i r .internal, true)
    | .acknowledged _ => (s.freeRecord i .internal, true)
    | .returned => (s, false)

/-! ### The Pattern Library's entries (R75, R80, R85, R88, R89) -/

/-- The extent of an entry enters the Free Extent List (R75). -/
def State.freeExtent (s : State) (l : Layout) : State :=
  match l.start with
  | none => s
  | some start => { s with free := insertExtent { start := start, length := l.length } s.free }

/-- An entry is discarded or deleted: its extent is freed, it becomes EMPTY with reference count 0, and PATTERN_STATE
is posted (R80, R88, R89). -/
def State.dropPattern (s : State) (n : PatNo) (l : Layout) (source : Source) : State :=
  ((s.freeExtent l).setEntry n Entry.empty).post (.patternState n source)

/-- A READY entry becomes DAMAGED: PATTERN_STATE is posted, and STORE_FAULT is raised where the damaged count goes from
0 to 1. The second part says whether a record changed (R85, R86). -/
def State.markDamaged (s : State) (n : PatNo) (source : Source) : State × Bool :=
  match (s.entry n).body with
  | .ready l =>
    let s1 := (s.setEntry n { s.entry n with body := .damaged l }).post (.patternState n source)
    if s.damagedCount = 0 then s1.internalRaise storeFaultSlot (s1.storeFaultFields n) else (s1, false)
  | _ => (s, false)

/-- One user entry at the close or loss of port p: a LOADING entry of p is discarded; at a close a READY or DAMAGED
entry of p gets definer NONE (R88, R89). -/
def State.leaveEntry (s : State) (p : Port) (closing : Bool) (n : PatNo) : State :=
  match (s.entry n).body with
  | .loading l _ => if l.definer = some p then s.dropPattern n l (.port p) else s
  | .ready l =>
    if l.definer = some p ∧ closing = true then
      s.setEntry n { s.entry n with body := .ready { l with definer := none } } else s
  | .damaged l =>
    if l.definer = some p ∧ closing = true then
      s.setEntry n { s.entry n with body := .damaged { l with definer := none } } else s
  | .empty => s

/-- The entries of a closing or lost port, in ascending order of pattern number (R88, R89). -/
def State.leaveEntries (s : State) (p : Port) (closing : Bool) : State :=
  userNumbers.foldl (fun t n => t.leaveEntry p closing n) s

end Sys2Proof.Machine
end

