-- ==== Sys2Proof/Machine/Arbiter.lean ====
section
/-! DEFINITION. The Tone Sequencer's step loads and tenure starts (chapter 3) and the Output Arbiter's decisions
(chapter 2): the shared operations that bring sound about. -/

namespace Sys2Proof.Machine

/-! ### Step loads (R53, R65, R66) -/

/-- What a step load finds (R53). -/
inductive Load where
  | good (st : Step) (pace : Nat)
  | damaged
  | badParity
  deriving DecidableEq, Repr

/-- The step at an index of a pattern: from the fixed steps for a built-in pattern; nothing is read from a DAMAGED
entry; from the Step Store, with its parity checked, for a READY one (R53). No load ever names an EMPTY or LOADING
entry (R84); it is read as a DAMAGED one. -/
def State.loadStep (s : State) (n : PatNo) (index : Nat) : Load :=
  match (s.entry n).body with
  | .ready l =>
    if isBuiltIn n then .good (builtInStep n index) l.pace
    else
      let w := s.word (l.start.getD 0 + index)
      if w.good then .good w.step l.pace else .badParity
  | _ => .damaged

/-- The Play Context takes a loaded step, with the owner given (R53). -/
def State.sound (s : State) (owner : Handle) (n : PatNo) (index : Nat) (st : Step) (pace : Nat) : State :=
  s.setPlay (.playing owner
    { pattern := n, index := index, timeLeft := st.duration pace, tone := st.tone, level := st.level })

/-- The fallback pattern, 28 (R65, R67). -/
def fallback : PatNo := 28

/-- The pace of pattern 28 (Table 3.5). -/
def fallbackPace : Nat := 1

/-- The record in a slot is switched to pattern 28: the reference counts follow and intro done becomes no (R13, R56,
R65). -/
def State.switchToFallback (s : State) (i : SlotNo) : State :=
  match s.record i with
  | none => s
  | some r => State.takeRef (State.dropRef (s.setRecord i { r with pattern := fallback, introDone := false }) r.pattern) fallback

/-- The switch and the load of step 0 of pattern 28 (R65, steps 3 and 4). -/
def State.fallBack (s : State) (i : SlotNo) : State :=
  let s1 := s.switchToFallback i
  s1.sound (s1.handleOf i) fallback 0 (builtInStep fallback 0) fallbackPace

/-- A step load for the owner in slot i, with whether it raised STORE_FAULT: the step enters the Play Context; or the
pattern is DAMAGED and the owner falls back (R66); or the parity is bad, and the pattern is marked DAMAGED before the
owner falls back (R65). -/
def State.loadOwner (s : State) (i : SlotNo) (index : Nat) : State × Bool :=
  match s.record i with
  | none => (s, false)
  | some r =>
    match s.loadStep r.pattern index with
    | .good st pace => (s.sound (s.handleOf i) r.pattern index st pace, false)
    | .damaged => (s.fallBack i, false)
    | .badParity =>
      let marked := s.markDamaged r.pattern .internal
      (marked.1.fallBack i, marked.2)

/-! ### Tenure starts (R55, R56) -/

/-- The step index a tenure starts at: the loop index once intro done is yes, 0 before (R18, R55). -/
def State.startIndex (s : State) (r : Record) : Nat :=
  if r.introDone then ((s.entry r.pattern).body.layout.map Layout.loopIndex).getD 0 else 0

/-- The tenure of the record in slot i begins, with whether a load raised STORE_FAULT: a head on a DAMAGED pattern is
switched and starts at index 0 of pattern 28 (R56, which the load of a DAMAGED pattern does); otherwise the step at
the start index is loaded; then SOUNDING is posted (R55). -/
def State.beginTenure (s : State) (i : SlotNo) : State × Bool :=
  match s.record i with
  | none => (s, false)
  | some r =>
    let loaded := s.loadOwner i (s.startIndex r)
    (loaded.1.post (.sound .sounding (loaded.1.refTo i r)), loaded.2)

/-- A start order: the head, if there is one, begins its tenure in IDLE (R35). -/
def State.startOnce (s : State) : State × Bool :=
  match s.head with
  | none => (s, false)
  | some i => s.beginTenure i

/-- The decision on a STORE_FAULT that a load has raised, on the context as it then stands: where the head is above the
owner and urgent, the owner is cut and the head starts (R65, R38). -/
def State.afterLoad (loaded : State × Bool) : State :=
  match loaded.2, loaded.1.play with
  | true, .playing owner _ =>
    if loaded.1.headAbove owner && loaded.1.headUrgent then loaded.1.cut.startOnce.1 else loaded.1
  | _, _ => loaded.1

/-- The head, if there is one, starts, and a STORE_FAULT its load raises is decided on (R35, R55, R65). -/
def State.startHead (s : State) : State := State.afterLoad s.startOnce

/-! ### Decisions (R35 to R42) -/

/-- How a tenure ends when its owner has left the Sounding Order: by acknowledgement or muting, or by clearing (R31,
R36, R37). -/
inductive Leaving where
  | byCut | byRelease
  deriving DecidableEq, Repr

/-- A tail meets an urgent head: it is cut and the head starts; otherwise it goes on (R42). -/
def State.arbitrateTail (s : State) : State := if s.headUrgent then s.cut.startHead else s

/-- The Arbiter's decision after a change of the records, which ended the tenure of an owner that has left the order in
the way given: in IDLE the head starts (R35); an owner that has left is cut or released (R36, R37); an owner below an
urgent head is cut (R38); otherwise it goes on (R39, R40); a tail meets an urgent head (R42). -/
def State.arbitrate (s : State) (leaving : Leaving) : State :=
  match s.play with
  | .idle => s.startHead
  | .playing owner _ =>
    if s.ownerStands owner then
      if s.headAbove owner && s.headUrgent then s.cut.startHead else s
    else
      match leaving with
      | .byCut => s.cut.startHead
      | .byRelease => s.release.arbitrateTail
  | .tail _ => s.arbitrateTail

/-- The decision where a record changed, and none where none did (R33). -/
def State.arbitrateIf (changed : State × Bool) : State :=
  if changed.2 then changed.1.arbitrate .byRelease else changed.1

/-! ### The silence action (R44, R45) -/

/-- The silence level: the owner's current priority while PLAYING, 7 otherwise (R44). -/
def State.silenceLevel (s : State) : Nat :=
  match s.play with
  | .playing owner _ => s.priority owner.slot
  | _ => 7

/-- A silence action at this level selects the record: ALERTING, at or below the level (R44). -/
def Record.selected (level : Nat) (r : Record) : Bool := r.isAlerting && decide (r.current ≤ level)

/-- The muted count: the selected records whose flag goes from no to yes (R44). -/
def State.mutedCount (s : State) (level : Nat) : Nat :=
  (List.finRange 30).countP (fun i => (s.record i).any (fun r => r.selected level && !r.muted))

/-- Every selected record is muted (R44). -/
def State.muteRecords (s : State) (level : Nat) : State :=
  s.mapRecords (fun r => if r.selected level then { r with muted := true } else r)

/-- The mute timer started afresh from the mute period: stopped where the period is 0 (R45). -/
def Params.muteStart (c : Params) : Option Nat := if c.mutePeriod = 0 then none else some (c.mutePeriod * 1000)

/-- The silence action: the level, the muting, the cut of the owner or of a tail and the start of a remaining head, the
mute timer, SILENCED (R44, R45). -/
def State.silenceAction (s : State) (source : Source) : State :=
  let level := s.silenceLevel
  let s1 := s.muteRecords level
  let s2 :=
    match s1.play with
    | .idle => s1
    | .playing _ _ => s1.cut.startHead
    | .tail _ => s1.cut.startHead
  State.post { s2 with mute := s2.params.muteStart } (.silenced source level (s.mutedCount level))

/-! ### Closing a session (R24, R88, R34) -/

/-- Steps 1 to 4 of R130: the session closes, the port's records are dealt with and one decision is taken for them all
(R34), then its patterns. The decision is taken also where the close changed no record (DESIGN CHOICE, unsafe: log 24). -/
def State.closePort (s : State) (p : Port) : State :=
  (State.arbitrate ((s.closeSession p).closeRecords p) .byRelease).leaveEntries p true

end Sys2Proof.Machine
end

