-- ==== Sys2Proof/Machine/Executor.lean ====
section
/-! DEFINITION. The Request Executor: the turn order, the taking of a request, and the first checks (R135 to R141).
Each request kind's own meaning is in the family files. -/

namespace Sys2Proof.Machine

/-- What a command answers. -/
abbrev Result := Host.Outcome State Fault Refusal

/-- What the Executor makes of a request: the state after it, and the reply's status and payload (R137). -/
structure Answer where
  state : State
  status : Status
  payload : List Byte
  deriving DecidableEq, Repr

/-- A refused request changes nothing (R137). -/
def State.refuse (s : State) (status : Status) : Answer := { state := s, status := status, payload := [] }

/-- A request carried out, with its reply's payload. -/
def State.okay (s : State) (payload : List Byte) : Answer := { state := s, status := .ok, payload := payload }

/-- The port served next: the first with a request waiting, in cyclic order from the port after the one the pointer
names to that port itself (R135). -/
def State.nextPort (s : State) : Option Port :=
  ([1, 2, 3, 0] : List Port).map (fun k => s.pointer + k) |>.find? (fun p => !(s.port p).inbound.isEmpty)

/-- A request is removed from the head of its port's inbound queue, and the pointer names that port (R135, R136). -/
def State.removeRequest (s : State) (p : Port) : State :=
  { s.setPort p { s.port p with inbound := (s.port p).inbound.tail } with pointer := p }

/-- A taking: the head request of the port next in turn is removed, served and replied to (R135, R136), where its kind
byte is one this row of the command table stands for. Otherwise this row's step is not the Executor's next, and
nothing happens (log 4). -/
def State.takeRequest (s : State) (isKind : Byte → Bool) (serve : Port → List Byte → State → Answer) : State :=
  match s.nextPort with
  | none => s
  | some p =>
    match (s.port p).inbound with
    | [] => s
    | r :: _ =>
      if isKind r.kind then
        let answer := serve p r.payload (s.removeRequest p)
        answer.state.postReply p { seq := r.seq, status := answer.status, payload := answer.payload }
      else s

/-- The kind byte names this request kind. -/
def isKind (k : Kind) (b : Byte) : Bool := decide (kindOf b = some k)

/-- Steps 2 to 4 of the order of checks: the length, an OPEN session, the right (R140). -/
def State.gate (s : State) (p : Port) (k : Kind) (payload : List Byte) (right : Rights → Bool) (go : Answer) : Answer :=
  if lengthOk k payload = false then s.refuse .badLength
  else if (s.port p).session ≠ .opened then s.refuse .notOpen
  else if right (s.rights p) = false then s.refuse .noRight
  else go

/-- A request that needs only an open session (R139). -/
def anyRights (_ : Rights) : Bool := true

end Sys2Proof.Machine
end

