-- ==== Sys2Proof/Machine/Alerts.lean ====
section
/-! DEFINITION. The alert requests: RAISE, CLEAR, ACK, ACK_ALL, SILENCE, ALERT_INFO, ALERT_LIST (chapters 1, 2, 8). -/

namespace Sys2Proof.Machine

/-- The occupied record with this origin port and tag (R5). -/
def State.findRecord (s : State) (p : Port) (tag : BitVec 16) : Option SlotNo :=
  (List.finRange 30).find? (fun i => (s.record i).any (fun r => decide (r.origin = .host p) && decide (r.tag = tag)))

/-- The holding of a port: the occupied records whose origin it is (R8). -/
def State.holding (s : State) (p : Port) : Nat :=
  (List.finRange 30).countP (fun i => (s.record i).any (fun r => decide (r.origin = .host p)))

/-- The lowest-numbered FREE host slot (R1). -/
def State.freeHostSlot (s : State) : Option SlotNo :=
  (List.finRange 30).find? (fun i => decide (i.val < Config.hostSlots) && (s.record i).isNone)

/-- The status that refuses a pattern for an alert, if it is not usable (R5). -/
def State.patternRefusal (s : State) (n : PatNo) : Option Status :=
  match (s.entry n).body with
  | .ready _ => none
  | .damaged _ => some .patternDamaged
  | .empty => some .patternNotReady
  | .loading _ _ => some .patternNotReady

/-- A RAISE for a new record: the pattern, quota and table-full checks, then the record (R5, R8). -/
def State.raiseNew (s : State) (p : Port) (f : RaiseFields) : Answer :=
  match s.patternRefusal f.pattern with
  | some status => s.refuse status
  | none =>
    if s.params.quota ≤ s.holding p then s.refuse .quota
    else
      match s.freeHostSlot with
      | none => s.refuse .tableFull
      | some i =>
        State.okay ((s.createRecord i (.host p false) f (.port p)).arbitrate .byRelease) (0#8 :: (s.handleOf i).bytes)

/-- A RAISE that matches the record r in slot i: EXISTING, or a re-alert (R6, R7). -/
def State.raiseMatched (s : State) (p : Port) (i : SlotNo) (r : Record) (f : RaiseFields) : Answer :=
  if r.isAlerting then s.okay (1#8 :: (s.handleOf i).bytes)
  else
    match s.patternRefusal f.pattern with
    | some status => s.refuse status
    | none =>
      State.okay ((s.realertRecord i r f (.port p)).arbitrate .byRelease) (2#8 :: (s.handleOf i).bytes)

/-- RAISE (R5 to R8). -/
def serveRaise (p : Port) (payload : List Byte) (s : State) : Answer :=
  s.gate p .raise payload Rights.r
    (match raiseFields payload with
    | none => s.refuse .badValue
    | some f =>
      match s.findRecord p f.tag with
      | none => s.raiseNew p f
      | some i =>
        match s.record i with
        | none => s.raiseNew p f
        | some r => s.raiseMatched p i r f)

/-- RAISE: the Executor takes it (R5). -/
def execRaise (s : State) : Result := .next (s.takeRequest (isKind .raise) serveRaise)

/-- The port may clear the record: its origin port with R, or any port with A when it is orphaned; never an internal
record (R9). -/
def State.mayClear (s : State) (p : Port) (r : Record) : Bool :=
  match r.raiser with
  | .internal => false
  | .host q orphaned => (decide (q = p) && (s.rights p).r) || (orphaned && (s.rights p).a)

/-- The port may acknowledge the record: any record with A, its own with R (R10). -/
def State.mayAck (s : State) (p : Port) (r : Record) : Bool :=
  (s.rights p).a || (decide (r.origin = .host p) && (s.rights p).r)

/-- The record a current handle names (R140, step 6). -/
def State.named (s : State) (h : Handle) : Option Record := if s.isCurrent h then s.record h.slot else none

/-- CLEAR (R9). -/
def serveClear (p : Port) (payload : List Byte) (s : State) : Answer :=
  s.gate p .clear payload (fun x => x.r || x.a)
    (match handleFields payload with
    | none => s.refuse .badValue
    | some h =>
      match s.named h with
      | none => s.refuse .staleHandle
      | some r =>
        if s.mayClear p r = false then s.refuse .notOwner
        else if r.state = .returned then s.okay [RecordState.returned.code]
        else
          let cleared := s.clearRecord h.slot (.port p)
          State.okay (cleared.arbitrate .byRelease) [slotStateCode (cleared.record h.slot)])

/-- CLEAR: the Executor takes it (R9). -/
def execClear (s : State) : Result := .next (s.takeRequest (isKind .clear) serveClear)

/-- ACK (R10). -/
def serveAck (p : Port) (payload : List Byte) (s : State) : Answer :=
  s.gate p .ack payload (fun x => x.r || x.a)
    (match handleFields payload with
    | none => s.refuse .badValue
    | some h =>
      match s.named h with
      | none => s.refuse .staleHandle
      | some r =>
        if s.mayAck p r = false then s.refuse .notOwner
        else
          match r.state with
          | .acknowledged _ => s.okay [r.state.code]
          | _ =>
            let acked := s.acknowledge h.slot (.port p)
            State.okay (acked.arbitrate .byCut) [slotStateCode (acked.record h.slot)])

/-- ACK: the Executor takes it (R10). -/
def execAck (s : State) : Result := .next (s.takeRequest (isKind .ack) serveAck)

/-- The number of records on the Arrival List that satisfy a test. -/
def State.countRecords (s : State) (test : Record → Bool) : Nat := s.arrival.countP (fun i => (s.record i).any test)

/-- ACK_ALL (R11). -/
def serveAckAll (p : Port) (payload : List Byte) (s : State) : Answer :=
  s.gate p .ackAll payload Rights.a
    (State.okay ((s.acknowledgeAll (.port p)).arbitrate .byCut)
      [byte (s.countRecords Record.isAlerting), byte (s.countRecords (fun r => decide (r.state = .returned)))])

/-- ACK_ALL: the Executor takes it (R11). -/
def execAckAll (s : State) : Result := .next (s.takeRequest (isKind .ackAll) serveAckAll)

/-- SILENCE (R44, R45). -/
def serveSilence (p : Port) (payload : List Byte) (s : State) : Answer :=
  s.gate p .silence payload Rights.a
    (State.okay (s.silenceAction (.port p)) [byte s.silenceLevel, byte (s.mutedCount s.silenceLevel)])

/-- SILENCE: the Executor takes it (R44). -/
def execSilence (s : State) : Result := .next (s.takeRequest (isKind .silence) serveSilence)

/-- ALERT_INFO (R143). -/
def serveAlertInfo (p : Port) (payload : List Byte) (s : State) : Answer :=
  s.gate p .alertInfo payload anyRights
    (match handleFields payload with
    | none => s.refuse .badValue
    | some h =>
      match s.named h with
      | none => s.refuse .staleHandle
      | some r => s.okay (alertInfoBytes h.generation r))

/-- ALERT_INFO: the Executor takes it (R143). -/
def execAlertInfo (s : State) : Result := .next (s.takeRequest (isKind .alertInfo) serveAlertInfo)

/-- The occupied slots from a start slot upwards, in slot order (R144). -/
def State.occupiedFrom (s : State) (start : SlotNo) : List SlotNo :=
  (List.finRange 30).filter (fun i => decide (start ≤ i) && (s.record i).isSome)

/-- The ALERT_LIST entry of an occupied slot (R144). -/
def State.listEntry (s : State) (i : SlotNo) : List Byte :=
  match s.record i with
  | none => []
  | some r => alertListEntry (s.handleOf i) r

/-- The start slot an ALERT_LIST carries (R144). -/
def startField (payload : List Byte) : Option SlotNo :=
  match payload with
  | [b] => slotField b
  | _ => none

/-- ALERT_LIST (R144). -/
def serveAlertList (p : Port) (payload : List Byte) (s : State) : Answer :=
  s.gate p .alertList payload anyRights
    (match startField payload with
    | none => s.refuse .badValue
    | some start =>
      let occupied := s.occupiedFrom start
      let listed := occupied.take 6
      let continuation : Byte :=
        match occupied.drop 6 with
        | [] => 0xFF#8
        | i :: _ => byte i.val
      s.okay ([byte listed.length, continuation] ++ listed.flatMap s.listEntry))

/-- ALERT_LIST: the Executor takes it (R144). -/
def execAlertList (s : State) : Result := .next (s.takeRequest (isKind .alertList) serveAlertList)

end Sys2Proof.Machine
end

