-- ==== Sys2Proof/Machine/Table.lean ====
section
/-! DEFINITION. STATUS, CONFIG_GET and CONFIG_SET (R145, R158 to R160, R112). -/

namespace Sys2Proof.Machine

/-- The Play Context state code and the owner's handle as STATUS reports them (R145). -/
def Play.statusBytes : Play → List Byte
  | .idle => 0#8 :: handleOrAbsent none
  | .playing owner _ => 1#8 :: handleOrAbsent (some owner)
  | .tail _ => 2#8 :: handleOrAbsent none

/-- The line byte of STATUS: 0 NORMAL, 1 FAULT OPEN, 2 FAULT SHORT (section 11.4). -/
def Line.code : Line → Byte
  | .normal _ => 0#8
  | .fault .openLine _ => 1#8
  | .fault .short _ => 2#8

/-- The number of occupied slots (R145). -/
def State.occupiedCount (s : State) : Nat := (List.finRange 30).countP (fun i => (s.record i).isSome)

/-- The port sessions byte of STATUS: P0 in bits 1–0 up to P3 in bits 7–6 (section 11.4). -/
def State.sessionsByte (s : State) : Byte :=
  byte (((List.finRange 4).map (fun p => (s.port p).session.code.toNat * 4 ^ p.val)).sum)

/-- The STATUS reply payload, 15 bytes (R145). -/
def State.statusBytes (s : State) : List Byte :=
  s.play.statusBytes ++ handleOrAbsent (s.head.map s.handleOf) ++ [s.line.code] ++ bytes2 s.freeTotal ++
  bytes2 s.freeLargest ++ [byte s.occupiedCount, s.sessionsByte] ++ bytes3 (s.mute.getD 0)

/-- STATUS (R145). -/
def serveStatus (p : Port) (payload : List Byte) (s : State) : Answer :=
  s.gate p .status payload anyRights (s.okay s.statusBytes)

/-- STATUS: the Executor takes it (R145). -/
def execStatus (s : State) : Result := .next (s.takeRequest (isKind .status) serveStatus)

/-- CONFIG_GET (R158). -/
def serveConfigGet (p : Port) (payload : List Byte) (s : State) : Answer :=
  s.gate p .configGet payload anyRights
    (match payload with
    | [id] =>
      match s.params.value id.toNat with
      | none => s.refuse .badValue
      | some v => s.okay (id :: bytes2 v)
    | _ => s.refuse .badValue)

/-- CONFIG_GET: the Executor takes it (R158). -/
def execConfigGet (s : State) : Result := .next (s.takeRequest (isKind .configGet) serveConfigGet)

/-- The Line Monitor is forced NORMAL or its fault clears: the drive follows, and SOUNDER_FAULT is returned (R111,
R112). -/
def State.clearFault (s : State) : State :=
  State.arbitrateIf ((s.setLine (.normal 0)).internalReturn sounderFaultSlot)

/-- The line monitor enable acts on the Line Monitor when it changes: off stops the sample timer and forces NORMAL with
the counts 0; on starts the timer from 100 ms (R112). -/
def State.followEnable (s : State) (before : Bool) : State :=
  match before, s.params.lineEnable with
  | true, false =>
    let s1 := { s with lineTimer := none }
    if s1.line.isFault then s1.clearFault else s1.setLine (.normal 0)
  | false, true => State.setLine { s with lineTimer := some 100 } (.normal 0)
  | _, _ => s

/-- CONFIG_SET: the profile is written by no port; then the ranges and the threshold order; then the value, and what
the line monitor enable brings about at once (R159, R160). -/
def serveConfigSet (p : Port) (payload : List Byte) (s : State) : Answer :=
  s.gate p .configSet payload (fun x => x.c && decide (payload.head? ≠ some 13#8))
    (match payload with
    | [id, hi, lo] =>
      match s.params.write id.toNat (number2 hi lo) with
      | none => s.refuse .badValue
      | some params =>
        State.okay (State.followEnable { s with params := params } s.params.lineEnable) [id, hi, lo]
    | _ => s.refuse .badValue)

/-- CONFIG_SET: the Executor takes it (R160). -/
def execConfigSet (s : State) : Result := .next (s.takeRequest (isKind .configSet) serveConfigSet)

end Sys2Proof.Machine
end

