-- ==== Sys2Proof/Machine/LineMonitor.lean ====
section
/-! DEFINITION. LINE_SAMPLE: the Line Monitor's sample and what the counts make of it (R106 to R111). -/

namespace Sys2Proof.Machine

/-- The class of a drive sample: the sense code against sense low and sense high (R107); `none` is OK. -/
def Params.driveClass (c : Params) (sense : Byte) : Option FaultKind :=
  if sense.toNat < c.senseLow then some .openLine
  else if c.senseHigh < sense.toNat then some .short
  else none

/-- The class of an idle check (R108); `none` is OK. -/
def idleClass : Loop → Option FaultKind
  | .continuity => none
  | .noContinuity => some .openLine
  | .lowPath => some .short

/-- The class of a sample: a drive sample while the drive state is ON, an idle check while it is OFF (R106). -/
def State.sampleClass (s : State) (sense : Byte) (loop : Loop) : Option FaultKind :=
  if s.drive.isSome then s.params.driveClass sense else idleClass loop

/-- A fault is declared: FAULT with this kind, the drive follows, and SOUNDER_FAULT is raised (R110). -/
def State.declareFault (s : State) (kind : FaultKind) : State :=
  let s1 := s.setLine (.fault kind 0)
  State.arbitrateIf (s1.internalRaise sounderFaultSlot (s1.sounderFaultFields kind))

/-- A classed sample acts on the Line Monitor (R109, R111, Table 6.2). -/
def State.actOnSample (s : State) (sampled : Option FaultKind) : State :=
  match s.line, sampled with
  | .normal _, none => s.setLine (.normal 0)
  | .normal bad, some kind => if bad < 3 then s.setLine (.normal (bad + 1)) else s.declareFault kind
  | .fault kind ok, none => if ok < 15 then s.setLine (.fault kind (ok + 1)) else s.clearFault
  | .fault _ _, some .short => s.setLine (.fault .short 0)
  | .fault kind _, some .openLine => s.setLine (.fault kind 0)

/-- LINE_SAMPLE: at the expiry of the sample timer one sample is taken and the timer starts again from 100 ms (R106). -/
def execLineSample (sense : Byte) (loop : Loop) (s : State) : Result :=
  .next
    (if s.lineTimer = some 0 then State.actOnSample { s with lineTimer := some 100 } (s.sampleClass sense loop) else s)

end Sys2Proof.Machine
end

