-- ==== Sys2Proof/Machine/Patterns.lean ====
section
/-! DEFINITION. The pattern requests (chapter 4) and the loss of a step word's parity (R70). -/

namespace Sys2Proof.Machine

/-- STEP_WORD_PARITY_LOSS: a fault of the Step Store makes a word's parity bad, with no write (R70). -/
def execStepWordParityLoss (index : Nat) (s : State) : Result :=
  if index < Config.stepWords then .next (s.setWord index (s.word index).spoiled) else .fault .noSuchStepWord

/-- PATTERN_DEFINE (R74, R76). -/
def servePatternDefine (p : Port) (payload : List Byte) (s : State) : Answer :=
  s.gate p .patternDefine payload Rights.p
    (match defineFields payload with
    | none => s.refuse .badValue
    | some (number, n, loopIndex, pace) =>
      match (s.entry number).body with
      | .empty =>
        match firstFit n s.free with
        | none => { state := s, status := .noSpace, payload := bytes2 s.freeLargest }
        | some (start, free) =>
          let l : Layout := { definer := some p, start := some start, length := n, loopIndex := loopIndex, pace := pace }
          State.okay (State.setEntry { s with free := free } number { body := .loading l 0, refs := 0 }) (bytes2 start)
      | _ => s.refuse .wrongState)

/-- PATTERN_DEFINE: the Executor takes it (R76). -/
def execPatternDefine (s : State) : Result := .next (s.takeRequest (isKind .patternDefine) servePatternDefine)

/-- The entry has a definer that is a port other than p (R77, R78). -/
def EntryBody.heldByOther (b : EntryBody) (p : Port) : Bool :=
  match b.layout with
  | some l => l.definer.any (fun q => decide (q ≠ p))
  | none => false

/-- Steps are written one after another from an index, each with its parity bit (R77, R70). -/
def State.writeSteps (s : State) (index : Nat) : List Step → State
  | [] => s
  | st :: rest => State.writeSteps (s.setWord index st.word) (index + 1) rest

/-- PATTERN_APPEND (R77). -/
def servePatternAppend (p : Port) (payload : List Byte) (s : State) : Answer :=
  s.gate p .patternAppend payload Rights.p
    (match appendFields payload with
    | none => s.refuse .badValue
    | some (number, steps) =>
      if (s.entry number).body.heldByOther p then s.refuse .notOwner
      else
        match (s.entry number).body with
        | .loading l fill =>
          if l.definer = none then s.refuse .wrongState
          else if steps.any (fun st => decide (st.units = 0)) then s.refuse .badStep
          else if l.length < fill + steps.length then s.refuse .overfill
          else
            let written := s.writeSteps (l.start.getD 0 + fill) steps
            State.okay
              (written.setEntry number { s.entry number with body := .loading l (fill + steps.length) })
              [byte (fill + steps.length)]
        | _ => s.refuse .wrongState)

/-- PATTERN_APPEND: the Executor takes it (R77). -/
def execPatternAppend (s : State) : Result := .next (s.takeRequest (isKind .patternAppend) servePatternAppend)

/-- PATTERN_COMMIT (R78). -/
def servePatternCommit (p : Port) (payload : List Byte) (s : State) : Answer :=
  s.gate p .patternCommit payload Rights.p
    (match numberField payload with
    | none => s.refuse .badValue
    | some number =>
      if (s.entry number).body.heldByOther p then s.refuse .notOwner
      else
        match (s.entry number).body with
        | .loading l fill =>
          if l.definer = none then s.refuse .wrongState
          else if fill ≠ l.length then { state := s, status := .incomplete, payload := [byte fill] }
          else
            State.okay
              ((s.setEntry number { s.entry number with body := .ready l }).post (.patternState number (.port p))) []
        | _ => s.refuse .wrongState)

/-- PATTERN_COMMIT: the Executor takes it (R78). -/
def execPatternCommit (s : State) : Result := .next (s.takeRequest (isKind .patternCommit) servePatternCommit)

/-- Why a PATTERN_DELETE is refused, if it is: ownership, then state, then the reference count, which a LOADING entry
always passes (R79, Table 4.3). -/
def State.deleteRefusal (s : State) (p : Port) (number : PatNo) : Option Status :=
  let refs := (s.entry number).refs
  match (s.entry number).body with
  | .empty => some .wrongState
  | .loading l _ => if l.definer ≠ some p then some .notOwner else none
  | .ready l =>
    if l.definer.any (fun q => decide (q ≠ p)) then some .notOwner
    else if isBuiltIn number then some .wrongState
    else if 0 < refs then some .inUse
    else none
  | .damaged _ => if isBuiltIn number then some .wrongState else if 0 < refs then some .inUse else none

/-- An entry is deleted: it is dropped, and STORE_FAULT is returned where it was the last DAMAGED one (R80, R86). -/
def State.deletePattern (s : State) (p : Port) (number : PatNo) : State :=
  match (s.entry number).body with
  | .empty => s
  | .loading l _ => s.dropPattern number l (.port p)
  | .ready l => s.dropPattern number l (.port p)
  | .damaged l =>
    let s1 := s.dropPattern number l (.port p)
    if s1.damagedCount = 0 then State.arbitrateIf (s1.internalReturn storeFaultSlot) else s1

/-- PATTERN_DELETE (R79, R80). -/
def servePatternDelete (p : Port) (payload : List Byte) (s : State) : Answer :=
  s.gate p .patternDelete payload Rights.p
    (match numberField payload with
    | none => s.refuse .badValue
    | some number =>
      match s.deleteRefusal p number with
      | some .inUse => { state := s, status := .inUse, payload := [byte (s.entry number).refs] }
      | some status => s.refuse status
      | none =>
        let deleted := s.deletePattern p number
        State.okay deleted (bytes2 deleted.freeTotal ++ bytes2 deleted.freeLargest))

/-- PATTERN_DELETE: the Executor takes it (R80). -/
def execPatternDelete (s : State) : Result := .next (s.takeRequest (isKind .patternDelete) servePatternDelete)

/-- PATTERN_INFO (R81). -/
def servePatternInfo (p : Port) (payload : List Byte) (s : State) : Answer :=
  s.gate p .patternInfo payload anyRights
    (match numberField payload with
    | none => s.refuse .badValue
    | some number => s.okay (patternInfoBytes (s.entry number)))

/-- PATTERN_INFO: the Executor takes it (R81). -/
def execPatternInfo (s : State) : Result := .next (s.takeRequest (isKind .patternInfo) servePatternInfo)

/-- The steps a PATTERN_READ reads from an entry, each with whether its parity was found good; a built-in entry's fixed
steps are always good (R82). -/
def State.readSteps (s : State) (number : PatNo) (l : Layout) (offset count : Nat) : List (Step × Bool) :=
  (List.range count).map fun k =>
    if isBuiltIn number then (builtInStep number (offset + k), true)
    else
      let w := s.word (l.start.getD 0 + offset + k)
      (w.step, w.good)

/-- The PATTERN_READ reply payload: the count, then the steps as read (Table 11.6). -/
def readBytes (steps : List (Step × Bool)) : List Byte :=
  byte steps.length :: steps.flatMap (fun x => stepAsRead x.1 x.2)

/-- PATTERN_READ (R82, R85): a READY entry with a bad step is marked DAMAGED, and the decision on a STORE_FAULT that
raises is taken, before the reply. -/
def servePatternRead (p : Port) (payload : List Byte) (s : State) : Answer :=
  s.gate p .patternRead payload anyRights
    (match readFields payload with
    | none => s.refuse .badValue
    | some (number, offset, count) =>
      match (s.entry number).body with
      | .ready l =>
        if l.length < offset + count then s.refuse .badValue
        else
          let steps := s.readSteps number l offset count
          if steps.all (fun x => x.2) then s.okay (readBytes steps)
          else State.okay (State.arbitrateIf (s.markDamaged number (.port p))) (readBytes steps)
      | .damaged l =>
        if l.length < offset + count then s.refuse .badValue
        else s.okay (readBytes (s.readSteps number l offset count))
      | _ => s.refuse .wrongState)

/-- PATTERN_READ: the Executor takes it (R82). -/
def execPatternRead (s : State) : Result := .next (s.takeRequest (isKind .patternRead) servePatternRead)

end Sys2Proof.Machine
end

