-- ==== Sys2Proof/Machine/Sessions.lean ====
section
/-! DEFINITION. The session requests HELLO, BYE and SUBSCRIBE, the request of unknown kind, and the loss of a port
(chapters 7 and 9). -/

namespace Sys2Proof.Machine

/-- UNKNOWN_KIND: the Executor takes a request whose kind byte names no request kind (R140, step 1). -/
def execUnknownKind (s : State) : Result :=
  .next (s.takeRequest (fun b => decide (kindOf b = none)) (fun _ _ t => t.refuse .unknownKind))

/-- The session change of a HELLO, by the port's session before it: an open (R127), a re-open with adoption and the
return of PORT_LOST (R128, R26), or a restart through the implicit BYE (R129). -/
def State.helloSession (s : State) (p : Port) : State :=
  match (s.port p).session with
  | .closed => s.openSession p
  | .lost => State.arbitrateIf (((s.openSession p).setOrphans p false).internalReturn (portLostSlot p))
  | .opened => (s.closePort p).openSession p

/-- The flags byte of the HELLO reply: bit 0 RESTARTED (R129, Table 11.6). -/
def restartedFlag : Session → Byte
  | .opened => 1#8
  | _ => 0#8

/-- HELLO (R127 to R129): no check of the session (R141). -/
def serveHello (p : Port) (payload : List Byte) (s : State) : Answer :=
  if lengthOk .hello payload = false then s.refuse .badLength
  else
    State.okay ((s.helloSession p).post (.portState p .opened (.port p)))
      [(s.port p).session.code, restartedFlag (s.port p).session, (s.rights p).code]

/-- HELLO: the Executor takes it (R127). -/
def execHello (s : State) : Result := .next (s.takeRequest (isKind .hello) serveHello)

/-- BYE (R130). -/
def serveBye (p : Port) (payload : List Byte) (s : State) : Answer :=
  s.gate p .bye payload anyRights
    (State.okay ((s.closePort p).post (.portState p .closed (.port p))) [])

/-- BYE: the Executor takes it (R130). -/
def execBye (s : State) : Result := .next (s.takeRequest (isKind .bye) serveBye)

/-- SUBSCRIBE (R150). -/
def serveSubscribe (p : Port) (payload : List Byte) (s : State) : Answer :=
  s.gate p .subscribe payload anyRights
    (match subscribeFields payload with
    | none => s.refuse .badValue
    | some (mask, attention) =>
      State.okay (s.setPort p { s.port p with mask := mask, attention := attention }) payload)

/-- SUBSCRIBE: the Executor takes it (R150). -/
def execSubscribe (s : State) : Result := .next (s.takeRequest (isKind .subscribe) serveSubscribe)

/-- KEEPALIVE_EXPIRY: the loss of an OPEN port whose keepalive timer has reached 0 (R132, R25, R89). Where the timer is
not at 0 or the port is not OPEN, the expiry does not happen (R133). -/
def execKeepaliveExpiry (p : Port) (s : State) : Result :=
  if (s.port p).session = .opened ∧ (s.port p).keepalive = some 0 then
    let s1 := (s.loseSession p).setOrphans p true
    let s2 := State.arbitrateIf (s1.internalRaise (portLostSlot p) (s1.portLostFields p))
    .next ((s2.leaveEntries p false).post (.portState p .lost .timer))
  else .next s

end Sys2Proof.Machine
end

