-- ==== Sys2Proof/Machine/OperatorPanel.lean ====
section
/-! DEFINITION. The panel: debounce sampling and what each accepted press or release does (R92 to R96). -/

namespace Sys2Proof.Machine

/-- Ticks come: CLKIN is present and no reset lasts (R162). -/
def State.ticking (s : State) : Bool := s.clkin && !s.inReset

/-- One sample of a button's input (Table 5.1). -/
def Button.sample (b : Button) (pin : Level) : Button :=
  match b.state, pin with
  | .released, .high => b
  | .released, .low => { b with state := .pressing, count := 1 }
  | .pressing, .low =>
    if b.count < 19 then { b with count := b.count + 1 }
    else { state := .pressed, count := 0, accepted := some .press }
  | .pressing, .high => { b with state := .released, count := 0 }
  | .pressed, .low => b
  | .pressed, .high => { b with state := .releasing, count := 1 }
  | .releasing, .high =>
    if b.count < 19 then { b with count := b.count + 1 }
    else { state := .released, count := 0, accepted := some .release }
  | .releasing, .low => { b with state := .pressed, count := 0 }

/-- DEBOUNCE_SAMPLE: each button input is sampled at a tick (R92). -/
def execDebounceSample (ackPin silencePin testPin : Level) (s : State) : Result :=
  .next
    (if s.ticking then
      { s with panel :=
        { ack := s.panel.ack.sample ackPin, silence := s.panel.silence.sample silencePin,
          test := s.panel.test.sample testPin } }
    else s)

/-- The accepted change of a button has been handed on (R93). -/
def Button.handedOn (b : Button) : Button := { b with accepted := none }

/-- PANEL_ACK: an accepted ACK press acknowledges every occupied record with PANEL as the source; with panel enable off
it is ignored (R93, R94). -/
def execPanelAck (s : State) : Result :=
  .next
    (if s.panel.ack.accepted = some .press then
      let s1 : State := { s with panel := { s.panel with ack := s.panel.ack.handedOn } }
      if s.params.panelEnable then (s1.acknowledgeAll .panel).arbitrate .byCut else s1
    else s)

/-- PANEL_SILENCE: an accepted SILENCE press performs the silence action with PANEL as the source; with panel enable
off it is ignored (R93, R95). -/
def execPanelSilence (s : State) : Result :=
  .next
    (if s.panel.silence.accepted = some .press then
      let s1 : State := { s with panel := { s.panel with silence := s.panel.silence.handedOn } }
      if s.params.panelEnable then s1.silenceAction .panel else s1
    else s)

/-- BUTTON_RELEASE_ACCEPTED: an accepted release of ACK or SILENCE has no effect (R93). -/
def execButtonReleaseAccepted (b : PlainButton) (s : State) : Result :=
  .next
    (match b with
    | .ack =>
      if s.panel.ack.accepted = some .release then { s with panel := { s.panel with ack := s.panel.ack.handedOn } }
      else s
    | .silence =>
      if s.panel.silence.accepted = some .release then
        { s with panel := { s.panel with silence := s.panel.silence.handedOn } }
      else s)

/-- LAMP_TEST_BEGIN: an accepted TEST press makes the lamp test ACTIVE, whatever panel enable holds (R96). -/
def execLampTestBegin (s : State) : Result :=
  .next
    (if s.panel.test.accepted = some .press then
      { s with panel := { s.panel with test := s.panel.test.handedOn }, lampTest := true }
    else s)

/-- LAMP_TEST_END: an accepted TEST release makes the lamp test INACTIVE (R96). -/
def execLampTestEnd (s : State) : Result :=
  .next
    (if s.panel.test.accepted = some .release then
      { s with panel := { s.panel with test := s.panel.test.handedOn }, lampTest := false }
    else s)

/-- FLASH_CLOCK_TICK: the phase advances by one, and returns to 0 after 999 (R99). -/
def execFlashClockTick (s : State) : Result :=
  .next (if s.ticking then { s with flashPhase := if s.flashPhase < 999 then s.flashPhase + 1 else 0 } else s)

end Sys2Proof.Machine
end

