-- ==== Sys2Proof/Machine/TimeBase.lean ====
section
/-! DEFINITION. The Time Base and the resets: TICK, CLKIN_STOP, CLKIN_RESUME (R162), POWER_ON_RESET, PIN_RESET and
RESET_END (R27, R48, R69, R90, R91, R102, R103, R115, R116, R134, R138, R156, R163). -/

namespace Sys2Proof.Machine

/-! ### The tick (R162, Table 10.2) -/

/-- A running timer falls by one at a tick; one that has reached 0 waits there for its expiry to be taken (log 5). -/
def countDown (timer : Option Nat) : Option Nat := timer.map (fun left => left - 1)

/-- The step timer counts in PLAYING and TAIL (R54). -/
def Play.countDown : Play → Play
  | .idle => .idle
  | .playing owner now => .playing owner { now with timeLeft := now.timeLeft - 1 }
  | .tail now => .tail { now with timeLeft := now.timeLeft - 1 }

/-- The escalation deadline of a slot's record counts while it runs (R14). -/
def Slot.countDown (x : Slot) : Slot :=
  { x with record := x.record.map (fun r => { r with deadline := Sys2Proof.Machine.countDown r.deadline }) }

/-- The keepalive timer of a port counts while it runs (R131). -/
def PortState.countDown (x : PortState) : PortState :=
  { x with keepalive := Sys2Proof.Machine.countDown x.keepalive }

/-- Every running timer advances by one tick: the step timer, the mute timer, the escalation deadlines, the keepalive
timers and the line sample timer; the substitute role follows the parameter (R100); the bridge's time advances
(R105). -/
def State.advance (s : State) : State :=
  { s with
    play := s.play.countDown
    mute := countDown s.mute
    slots := Vector.ofFn (fun i : SlotNo => (s.slot i).countDown)
    ports := Vector.ofFn (fun p : Port => (s.port p).countDown)
    lineTimer := countDown s.lineTimer
    substituteRole := s.params.substitute
    driveMs := if s.drive.isSome then (s.driveMs + 1) % 10 else 0 }

/-- TICK: a tick of the Time Base; none is produced while CLKIN is absent or a reset lasts (R162). -/
def execTick (s : State) : Result := .next (if s.ticking then s.advance else s)

/-- CLKIN_STOP: CLKIN becomes absent (R162). -/
def execClkinStop (s : State) : Result := .next { s with clkin := false }

/-- CLKIN_RESUME: CLKIN returns (R162). -/
def execClkinResume (s : State) : Result := .next { s with clkin := true }

/-! ### The resets -/

/-- A port at a reset; its chip select pin keeps its level, which is the host's (R134). -/
def PortState.afterReset (x : PortState) : PortState := { PortState.reset with selectLow := x.selectLow }

/-- What both resets do: every block but the Pattern Library takes its reset state, the parameters take their defaults
(the profile waits for the straps at the reset's end), no timer runs, and the reset lasts. The levels of the pins that
others drive, and the waiting commands, stay as they are. -/
def State.blocksReset (s : State) : State :=
  { State.reset with
    store := s.store, directory := s.directory, free := s.free
    ports := Vector.ofFn (fun p : Port => (s.port p).afterReset)
    params := Params.default s.params.profile
    lineTimer := none
    clkin := s.clkin
    inReset := true
    pending := s.pending }

/-- POWER_ON_RESET: supply is first applied; the Pattern Library is emptied too (R90). -/
def execPowerOnReset (s : State) : Result :=
  .next { s.blocksReset with store := State.reset.store, directory := State.reset.directory, free := State.reset.free }

/-- One user entry at a pin reset: READY and DAMAGED entries are kept with definer NONE and reference count 0; a
LOADING entry becomes EMPTY and its extent is freed; no event is posted (R91). -/
def State.pinResetEntry (s : State) (n : PatNo) : State :=
  match (s.entry n).body with
  | .empty => s.setEntry n Entry.empty
  | .loading l _ => (s.freeExtent l).setEntry n Entry.empty
  | .ready l => s.setEntry n { body := .ready { l with definer := none }, refs := 0 }
  | .damaged l => s.setEntry n { body := .damaged { l with definer := none }, refs := 0 }

/-- The built-in entries at a reset: READY, definer NONE, reference count 0 (R91). -/
def State.pinResetBuiltIns (s : State) : State :=
  ([28, 29, 30, 31] : List PatNo).foldl (fun t n => t.setEntry n (State.reset.entry n)) s

/-- PIN_RESET: RESET_N is asserted (R91). -/
def execPinReset (s : State) : Result :=
  .next (userNumbers.foldl State.pinResetEntry s.blocksReset).pinResetBuiltIns

/-- The profile number the straps give: 2 for PROF1 high, plus 1 for PROF0 high (R138). -/
def profileOf (prof1 prof0 : Level) : Fin 4 :=
  match prof1, prof0 with
  | .low, .low => 0
  | .low, .high => 1
  | .high, .low => 2
  | .high, .high => 3

/-- The end of a reset: the straps are sampled, the parameters are at their defaults, and the line sample timer starts
from 100 ms (R138, R157, R116). -/
def State.leaveReset (s : State) (prof1 prof0 : Level) : State :=
  { s with params := Params.default (profileOf prof1 prof0), lineTimer := some 100, inReset := false }

/-- RESET_END: the reset ends, and STORE_FAULT is raised at once, with the lowest DAMAGED number as its tag, where a
DAMAGED pattern was kept; it starts from IDLE (R27, R48, R138). Where no reset lasts, none ends. -/
def execResetEnd (prof1 prof0 : Level) (s : State) : Result :=
  .next
    (if s.inReset then
      let s1 := s.leaveReset prof1 prof0
      match s1.damagedNumbers with
      | [] => s1
      | n :: _ => State.arbitrateIf (s1.internalRaise storeFaultSlot (s1.storeFaultFields n))
    else s)

end Sys2Proof.Machine
end

