-- ==== Sys2Proof/Machine/Timers.lean ====
section
/-! DEFINITION. The expiries of the step timer, an escalation deadline and the mute timer (chapters 1 to 3). An expiry
happens when its timer has reached 0; where a change taken earlier has stopped or restarted the timer, the expiry does
not happen (R15, R47, R63). -/

namespace Sys2Proof.Machine

/-! ### STEP_END (R54, R57 to R60, R64) -/

/-- The length of a pattern (Table 4.1), 0 where its entry has none. -/
def State.patternLength (s : State) (n : PatNo) : Nat := ((s.entry n).body.layout.map Layout.length).getD 0

/-- The loop index of a pattern (Table 4.1), 0 where its entry has none. -/
def State.patternLoop (s : State) (n : PatNo) : Nat := ((s.entry n).body.layout.map Layout.loopIndex).getD 0

/-- A plain step end: a higher head preempts the owner and starts; otherwise the next step is loaded (R57, R64). -/
def State.plainStepEnd (s : State) (owner : Handle) (now : Sounding) : State :=
  match s.record owner.slot with
  | none => s
  | some r =>
    if s.headAbove owner then ((s.post (.sound .preempted (s.refTo owner.slot r))).setPlay .idle).startHead
    else State.afterLoad (s.loadOwner owner.slot (now.index + 1))

/-- The record after a completed cycle: intro done yes; for COUNTED, cycles left one lower, and sound due no where that
reaches 0. The second part says whether its counted sound expired (R16, R58). -/
def Record.cycled (r : Record) : Record × Bool :=
  match r.mode with
  | .continuous => ({ r with introDone := true }, false)
  | .counted n left =>
    if left ≤ 1 then ({ r with introDone := true, mode := .counted n 0, soundDue := false }, true)
    else ({ r with introDone := true, mode := .counted n (left - 1) }, false)

/-- The cycle report: the Alert Table applies it, and EXPIRED is posted where the counted sound expires (R16, R58). -/
def State.reportCycle (s : State) (i : SlotNo) : State :=
  match s.record i with
  | none => s
  | some r =>
    let s1 := s.setRecord i r.cycled.1
    if r.cycled.2 then s1.postRecord .expired i r.cycled.1 .timer else s1

/-- The Arbiter's decision at a cycle end and what the sequencer does with it: the owner goes on at its loop index,
another head starts, or the context becomes IDLE (R41, R59). -/
def State.afterCycle (s : State) (owner : Handle) (now : Sounding) : State :=
  match s.head with
  | none => s.setPlay .idle
  | some i =>
    if i = owner.slot then State.afterLoad (s.loadOwner i (s.patternLoop now.pattern))
    else (s.setPlay .idle).startHead

/-- The end of the step in the Play Context (R57 to R60). -/
def State.endStep (s : State) : State :=
  match s.play with
  | .idle => s
  | .tail _ => (s.setPlay .idle).startHead
  | .playing owner now =>
    if now.index + 1 < s.patternLength now.pattern then s.plainStepEnd owner now
    else (s.reportCycle owner.slot).afterCycle owner now

/-- STEP_END: the step timer has reached 0 (R54). -/
def execStepEnd (s : State) : Result :=
  .next (if s.play.now.any (fun now => decide (now.timeLeft = 0)) then s.endStep else s)

/-! ### ESCALATION_EXPIRY (R15) -/

/-- Cycles left set to n again, for COUNTED (R15). -/
def SoundMode.refilled : SoundMode → SoundMode
  | .continuous => .continuous
  | .counted n _ => .counted n n

/-- The record after an escalation: priority one higher, muted no, sound due yes, cycles left n, and the deadline
started again below the ceiling (R15). -/
def Record.escalated (r : Record) : Record :=
  { r with
    current := r.current + 1, muted := false, soundDue := true, mode := r.mode.refilled
    deadline := startedDeadline r.interval (r.current + 1) r.ceiling }

/-- The record's deadline has reached 0, in ALERTING below its ceiling (R15). -/
def Record.escalationDue (r : Record) : Bool :=
  decide (r.deadline = some 0) && r.isAlerting && decide (r.current < r.ceiling)

/-- The escalation of the record in slot i, where its deadline is due, with the Arbiter's decision (R15, R34). -/
def State.escalate (s : State) (i : SlotNo) : State :=
  match s.record i with
  | none => s
  | some r =>
    if r.escalationDue then
      ((s.setRecord i r.escalated).postRecord .escalated i r.escalated .timer).arbitrate .byRelease
    else s

/-- ESCALATION_EXPIRY: the escalation deadline of the record in this slot has reached 0 (R15). -/
def execEscalationExpiry (slot : Nat) (s : State) : Result :=
  if h : slot < 30 then .next (s.escalate ⟨slot, h⟩) else .fault .noSuchSlot

/-! ### MUTE_TIMER_EXPIRY (R46) -/

/-- The number of records whose muted flag is yes (R46). -/
def State.mutedRecords (s : State) : Nat :=
  (List.finRange 30).countP (fun i => (s.record i).any Record.muted)

/-- Every muted flag is cleared (R46). -/
def State.unmuteRecords (s : State) : State :=
  s.mapRecords (fun r => { r with muted := false })

/-- The expiry of the mute period: the timer stops, the flags are cleared, one decision is taken, and RESOUNDED is
posted (R46). -/
def State.resound (s : State) : State :=
  State.post (State.arbitrate (State.unmuteRecords { s with mute := none }) .byRelease) (.resounded s.mutedRecords)

/-- MUTE_TIMER_EXPIRY: the mute timer has reached 0 (R46). -/
def execMuteTimerExpiry (s : State) : Result := .next (if s.mute = some 0 then s.resound else s)

end Sys2Proof.Machine
end

