-- ==== Sys2Proof/Machine/Transactions.lean ====
section
/-! DEFINITION. The SPI transaction of a port: CHIP_SELECT_FALL, SCK_RISING_EDGE and CHIP_SELECT_RISE (R117 to R125,
R131, R152). -/

namespace Sys2Proof.Machine

/-- A transaction begins: the status byte and the outbound frame are fixed as they stand (R117, R119). -/
def PortState.beginTransaction (x : PortState) : PortState :=
  { x with
    selectLow := true
    transaction := some
      { status := x.statusByte, frame := x.outbound.1, source := x.outbound.2, received := [], bits := [] } }

/-- CHIP_SELECT_FALL: a transaction begins (R117). A chip select that is low already does not fall; one that falls
while a reset lasts begins no transaction (R134). -/
def execChipSelectFall (p : Port) (s : State) : Result :=
  .next
    (if (s.port p).selectLow then s
    else if s.inReset then s.setPort p { s.port p with selectLow := true }
    else s.setPort p (s.port p).beginTransaction)

/-- Eight bits as a byte, the first the most significant (section 7.1). -/
def byteOfBits (bits : List Bool) : Byte := byte (bits.foldl (fun acc b => acc * 2 + b.toNat) 0)

/-- A rising edge of SCK in a transaction: SDI is sampled, and the eighth edge makes a byte whole (R118). -/
def Transaction.clockBit (t : Transaction) (bit : Bool) : Transaction :=
  if t.bits.length < 7 then { t with bits := t.bits ++ [bit] }
  else { t with received := t.received ++ [byteOfBits (t.bits ++ [bit])], bits := [] }

/-- SCK_RISING_EDGE: SDI is sampled; SCK is not read outside a transaction (R117, R118). -/
def execSckRisingEdge (p : Port) (sdi : Level) (s : State) : Result :=
  .next
    (match (s.port p).transaction with
    | none => s
    | some t => s.setPort p { s.port p with transaction := some (t.clockBit (decide (sdi = .high))) })

/-- The transaction clocked every byte of its frame: the status byte and the frame through its CRC (R120). -/
def Transaction.clockedAll (t : Transaction) : Bool := decide (t.frame.length + 1 ≤ t.received.length)

/-- An OVERRUN entry read out: removed where its count is the count sent, otherwise kept with the difference (R152). -/
def readOutOverrun (sent : Nat) (queue : List Event) : List Event :=
  match queue with
  | .overrun count :: rest => if count = sent then rest else .overrun (count - sent) :: rest
  | q => q

/-- A fully clocked outbound frame is removed from its queue; one partly clocked is kept (R120, R152). -/
def PortState.removeOutbound (x : PortState) (t : Transaction) : PortState :=
  if t.clockedAll then
    match t.source with
    | .reply => { x with replies := x.replies.tail }
    | .event => { x with events := x.events.tail }
    | .overrun sent => { x with events := readOutOverrun sent x.events }
    | .nothing => x
    | .emptied => x
  else x

/-- A well-formed frame restarts the keepalive timer of an OPEN port (R131). -/
def PortState.restartKeepalive (x : PortState) (c : Params) : PortState :=
  if x.session = .opened then { x with keepalive := c.keepaliveStart } else x

/-- A well-formed request is admitted while the sum of R124 is below 4, and is otherwise refused as FULL (R123). -/
def PortState.offerRequest (x : PortState) (r : Request) : PortState :=
  if x.load < 4 then { x with inbound := x.inbound ++ [r], lastOutcome := .accepted }
  else { x with lastOutcome := .full }

/-- The received bytes are judged: the last-outcome is set, a request is offered to the inbound queue, and the
keepalive timer is restarted by a well-formed frame (R121 to R123, R131). -/
def PortState.judgeFrame (x : PortState) (c : Params) (received : List Byte) : PortState :=
  match judge received with
  | .frameError => { x with lastOutcome := .frameError }
  | .nullFrame => PortState.restartKeepalive { x with lastOutcome := .none } c
  | .request r => (x.offerRequest r).restartKeepalive c

/-- A transaction ends: the outbound frame is removed or kept, then the received frame is judged; a void transaction
does neither (R118). -/
def PortState.endTransaction (x : PortState) (c : Params) : PortState :=
  match x.transaction with
  | none => { x with selectLow := false }
  | some t =>
    let ended : PortState := { x with selectLow := false, transaction := none }
    if t.received.isEmpty then ended else (ended.removeOutbound t).judgeFrame c t.received

/-- CHIP_SELECT_RISE: the port's transaction ends (R118). -/
def execChipSelectRise (p : Port) (s : State) : Result :=
  .next (s.setPort p ((s.port p).endTransaction s.params))

end Sys2Proof.Machine
end

