-- ==== Sys2Proof/Machine/Dispatch.lean ====
section
/-! DEFINITION. One arm per command: the meaning it calls. -/

namespace Sys2Proof.Machine

def exec (i : Instr) (s : State) : Host.Outcome State Fault Refusal :=
  match i with
  | .powerOnReset => Sys2Proof.Machine.execPowerOnReset s
  | .pinReset => Sys2Proof.Machine.execPinReset s
  | .resetEnd prof1 prof0 => Sys2Proof.Machine.execResetEnd prof1 prof0 s
  | .tick => Sys2Proof.Machine.execTick s
  | .clkinStop => Sys2Proof.Machine.execClkinStop s
  | .clkinResume => Sys2Proof.Machine.execClkinResume s
  | .stepWordParityLoss index => Sys2Proof.Machine.execStepWordParityLoss index s
  | .chipSelectFall p => Sys2Proof.Machine.execChipSelectFall p s
  | .chipSelectRise p => Sys2Proof.Machine.execChipSelectRise p s
  | .unknownKind => Sys2Proof.Machine.execUnknownKind s
  | .hello => Sys2Proof.Machine.execHello s
  | .bye => Sys2Proof.Machine.execBye s
  | .subscribe => Sys2Proof.Machine.execSubscribe s
  | .raise => Sys2Proof.Machine.execRaise s
  | .clear => Sys2Proof.Machine.execClear s
  | .ack => Sys2Proof.Machine.execAck s
  | .ackAll => Sys2Proof.Machine.execAckAll s
  | .silence => Sys2Proof.Machine.execSilence s
  | .alertInfo => Sys2Proof.Machine.execAlertInfo s
  | .alertList => Sys2Proof.Machine.execAlertList s
  | .patternDefine => Sys2Proof.Machine.execPatternDefine s
  | .patternAppend => Sys2Proof.Machine.execPatternAppend s
  | .patternCommit => Sys2Proof.Machine.execPatternCommit s
  | .patternDelete => Sys2Proof.Machine.execPatternDelete s
  | .patternInfo => Sys2Proof.Machine.execPatternInfo s
  | .patternRead => Sys2Proof.Machine.execPatternRead s
  | .status => Sys2Proof.Machine.execStatus s
  | .configGet => Sys2Proof.Machine.execConfigGet s
  | .configSet => Sys2Proof.Machine.execConfigSet s
  | .stepEnd => Sys2Proof.Machine.execStepEnd s
  | .escalationExpiry slot => Sys2Proof.Machine.execEscalationExpiry slot s
  | .muteTimerExpiry => Sys2Proof.Machine.execMuteTimerExpiry s
  | .keepaliveExpiry p => Sys2Proof.Machine.execKeepaliveExpiry p s
  | .lineSample sense loop => Sys2Proof.Machine.execLineSample sense loop s
  | .debounceSample ackPin silencePin testPin => Sys2Proof.Machine.execDebounceSample ackPin silencePin testPin s
  | .panelAck => Sys2Proof.Machine.execPanelAck s
  | .panelSilence => Sys2Proof.Machine.execPanelSilence s
  | .buttonReleaseAccepted b => Sys2Proof.Machine.execButtonReleaseAccepted b s
  | .lampTestBegin => Sys2Proof.Machine.execLampTestBegin s
  | .lampTestEnd => Sys2Proof.Machine.execLampTestEnd s
  | .flashClockTick => Sys2Proof.Machine.execFlashClockTick s
  | .sckRisingEdge p sdi => Sys2Proof.Machine.execSckRisingEdge p sdi s

end Sys2Proof.Machine
end

