-- ==== Sys2Proof/Safety.lean ====
section
/-! DEFINITION. What counts as a sound state of the SQ4, in the terms the statements use: the sentences of the data book
that hold "at all times", each as a predicate of the state, and whose turn it is at the Request Executor. -/

namespace Sys2Proof.Machine

/-! ### The Alert Table (chapter 1) -/

/-- The Arrival List holds every occupied record exactly once and no other slot (R19). -/
def State.ArrivalExact (s : State) : Prop := s.arrival.Nodup ∧ ∀ i, i ∈ s.arrival ↔ (s.record i).isSome = true

/-- The priorities 1 ≤ base ≤ current ≤ ceiling ≤ 7, and 0 ≤ cycles left ≤ n with 1 ≤ n ≤ 255 (Table 1.2, R15). -/
def Record.InRange (r : Record) : Prop :=
  1 ≤ r.base ∧ r.base ≤ r.current ∧ r.current ≤ r.ceiling ∧ r.ceiling ≤ 7 ∧
    r.mode.left ≤ r.mode.count ∧ r.mode.count ≤ 255 ∧ (r.mode.isCounted = true → 1 ≤ r.mode.count) ∧ r.interval ≤ 255

/-- The escalation deadline runs exactly while the record is ALERTING below its ceiling with a non-zero interval, and
never holds more than the interval (R14). -/
def Record.DeadlineStands (r : Record) : Prop :=
  (r.deadline.isSome = true ↔ r.state = .alerting ∧ r.interval ≠ 0 ∧ r.current < r.ceiling) ∧
    r.deadline.getD 0 ≤ r.interval * 1000

/-- Every occupied record is in range, with its deadline as R14 has it. -/
def State.RecordsSound (s : State) : Prop := ∀ i, ∀ r ∈ s.record i, r.InRange ∧ r.DeadlineStands

/-- The host slots 0 to 23 hold records of a host origin, the internal slots 24 to 29 internal records (R1). -/
def State.SlotsByOrigin (s : State) : Prop :=
  ∀ i, ∀ r ∈ s.record i, r.origin = .internal ↔ Config.hostSlots ≤ i.val

/-- No two occupied records of a host origin have the same origin and the same tag (R5; log 16). -/
def State.TagsDistinct (s : State) : Prop :=
  ∀ i j, ∀ r ∈ s.record i, ∀ q ∈ s.record j,
    r.origin ≠ .internal → r.origin = q.origin → r.tag = q.tag → i = j

/-- The record in this slot is ALERTING or ACKNOWLEDGED: its condition is active (Table 1.3). -/
def State.conditionActive (s : State) (i : SlotNo) : Bool :=
  (s.record i).any (fun r => decide (r.state ≠ .returned))

/-- An internal record's condition is active only while its cause stands: PORT_LOST while its port is LOST (R23),
SOUNDER_FAULT while the Line Monitor is in FAULT, STORE_FAULT while an entry is DAMAGED (Table 1.6). -/
def State.CausesStand (s : State) : Prop :=
  (∀ (p : Port) (i : SlotNo), i.val = 24 + p.val → s.conditionActive i = true → (s.port p).session = .lost) ∧
  (s.conditionActive 28 = true → s.line.isFault = true) ∧ (s.conditionActive 29 = true → 0 < s.damagedCount)

/-! ### Sound (chapters 2, 3, 6) -/

/-- Whoever owns the Play Context is an occupied record that is ALERTING, not muted and sound due (R50). -/
def State.OwnerStands (s : State) : Prop := ∀ owner now, s.play = .playing owner now → s.ownerStands owner = true

/-- No record waits for an IDLE sounder (R35). -/
def State.IdleSilent (s : State) : Prop := s.play = .idle → s.order = []

/-- The Sounder Driver drives what its inputs call for, and nothing else (R104). -/
def State.DriveFollows (s : State) : Prop := s.drive = wantedDrive s.play s.line

/-- The Line Monitor's counts are in range; while the enable is off its state is NORMAL and the sample timer is stopped
(section 6.3, R106, R112). -/
def State.LineSound (s : State) : Prop :=
  (match s.line with
   | .normal bad => bad ≤ 3
   | .fault _ ok => ok ≤ 15 ∧ s.params.lineEnable = true) ∧
  (s.lineTimer.isSome = true → s.params.lineEnable = true)

/-! ### The Pattern Library (chapter 4) -/

/-- The number of occupied records that name a pattern (R83). -/
def State.namers (s : State) (n : PatNo) : Nat :=
  (List.finRange 30).countP (fun i => (s.record i).any (fun r => decide (r.pattern = n)))

/-- A READY or DAMAGED entry: one that an occupied record may name (R84). -/
def EntryBody.nameable : EntryBody → Bool
  | .ready _ => true
  | .damaged _ => true
  | _ => false

/-- The built-in entries are READY, with the fields of Table 3.5 (R67). -/
def State.BuiltInsStand (s : State) : Prop := ∀ n, isBuiltIn n = true → (s.entry n).body = (State.reset.entry n).body

/-- Every reference count equals the number of records that name the entry (R83), no record names an EMPTY or LOADING
entry (R84), and the built-in entries stand (R67). -/
def State.CountsExact (s : State) : Prop :=
  (∀ n, (s.entry n).refs = s.namers n) ∧ (∀ i, ∀ r ∈ s.record i, (s.entry r.pattern).body.nameable = true) ∧
    s.BuiltInsStand

/-- The fields of a user entry are in the ranges of Table 4.1. -/
def Layout.InRange (l : Layout) : Prop :=
  l.start.isSome = true ∧ 1 ≤ l.length ∧ l.length ≤ 128 ∧ l.loopIndex < l.length ∧ 1 ≤ l.pace ∧ l.pace ≤ 8

/-- Every user entry that is not EMPTY has its fields in range, a LOADING one its fill count too (Table 4.1). -/
def State.EntriesInRange (s : State) : Prop :=
  ∀ n, isBuiltIn n = false →
    match (s.entry n).body with
    | .empty => True
    | .loading l fill => l.InRange ∧ fill ≤ l.length
    | .ready l => l.InRange
    | .damaged l => l.InRange

/-- The index lies in the extent (R73). -/
def Extent.covers (x : Extent) (k : Nat) : Bool := decide (x.start ≤ k) && decide (k < x.start + x.length)

/-- The extent of a directory entry, where it has one (R71). -/
def Entry.extent (e : Entry) : Option Extent :=
  e.body.layout.bind (fun l => l.start.map (fun start => { start := start, length := l.length }))

/-- The extents of the user entries in LOADING, READY or DAMAGED state (R71). -/
def State.reserved (s : State) : List Extent := userNumbers.filterMap (fun n => (s.entry n).extent)

/-- Each index 0 to 1023 lies in exactly one extent, reserved or free, and no extent goes beyond (R73). -/
def State.CoveredOnce (s : State) : Prop :=
  ∀ k, (s.reserved ++ s.free).countP (fun x => x.covers k) = if k < Config.stepWords then 1 else 0

/-- The Free Extent List is in ascending order of start, its extents are not empty, and no two are adjacent (R73). -/
def FreeListSound (free : List Extent) : Prop :=
  (∀ x ∈ free, 1 ≤ x.length) ∧ free.Pairwise (fun x y => x.start + x.length < y.start)

/-- The Step Store is divided as R73 has it, between user entries whose fields are in range. -/
def State.StoreDivided (s : State) : Prop := s.EntriesInRange ∧ s.CoveredOnce ∧ FreeListSound s.free

/-! ### The ports (chapters 7 and 9) -/

/-- For each port, the requests in its inbound queue plus the replies in its reply queue are at most 4 (R124). -/
def State.LoadsBounded (s : State) : Prop := ∀ p, (s.port p).load ≤ 4

/-- An event queue holds at most 15 ordinary entries, and after them at most one OVERRUN entry, of count 1 to 255
(R151). -/
def EventQueueSound (queue : List Event) : Prop :=
  ∃ ordinary, ordinary.length ≤ 15 ∧ (∀ e ∈ ordinary, e.isOverrun = false) ∧
    (queue = ordinary ∨ ∃ count, 1 ≤ count ∧ count ≤ 255 ∧ queue = ordinary ++ [.overrun count])

/-- While an OVERRUN entry is being sent it is the only entry, and its count is at least the count sent (R152). -/
def PortState.OverrunSent (x : PortState) : Prop :=
  ∀ t ∈ x.transaction, ∀ sent, t.source = .overrun sent → ∃ count, sent ≤ count ∧ x.events = [.overrun count]

/-- Every event queue is as R151 has it, and an OVERRUN entry being sent is as R152 has it. -/
def State.QueuesSound (s : State) : Prop :=
  ∀ p, EventQueueSound (s.port p).events ∧ (s.port p).OverrunSent

/-- A transaction is in progress only while chip select is low, with fewer than eight bits of the byte in progress
(R117, R118). -/
def PortState.TransactionSound (x : PortState) : Prop :=
  ∀ t ∈ x.transaction, x.selectLow = true ∧ t.bits.length < 8

/-- Every port's transaction is sound, and its keepalive timer runs only while it is OPEN (R131). -/
def State.PortsSound (s : State) : Prop :=
  ∀ p, (s.port p).TransactionSound ∧ ((s.port p).keepalive.isSome = true → (s.port p).session = .opened)

/-! ### The Configuration Table, the panel and the clocks (chapters 5 and 10) -/

/-- Every parameter holds a value in its range, and sense low is never above sense high (R157). -/
def Params.InRange (c : Params) : Prop :=
  c.keepalive ≤ 255 ∧ c.mutePeriod ≤ 3600 ∧ 2 ≤ c.urgent ∧ c.urgent ≤ 8 ∧ 1 ≤ c.quota ∧ c.quota ≤ 24 ∧
  1 ≤ c.portLostPrio ∧ c.portLostPrio ≤ 7 ∧ 1 ≤ c.sounderFaultPrio ∧ c.sounderFaultPrio ≤ 7 ∧
  1 ≤ c.storeFaultPrio ∧ c.storeFaultPrio ≤ 7 ∧ c.senseLow ≤ c.senseHigh ∧ c.senseHigh ≤ 255

/-- A button's debounce count is 0 when it is RELEASED or PRESSED, and 1 to 19 on the way (R92). -/
def Button.CountSound (b : Button) : Prop :=
  match b.state with
  | .released | .pressed => b.count = 0
  | .pressing | .releasing => 1 ≤ b.count ∧ b.count ≤ 19

/-- The parameters, the debounce counts, the flash clock's phase and the timers of Table 10.2 are in range; the sample
timer runs exactly while the line monitor enable is on, outside a reset (R106, R116). -/
def State.TimersSound (s : State) : Prop :=
  s.params.InRange ∧ s.panel.ack.CountSound ∧ s.panel.silence.CountSound ∧ s.panel.test.CountSound ∧
  s.flashPhase ≤ 999 ∧ s.mute.getD 0 ≤ 3600000 ∧ s.lineTimer.getD 0 ≤ 100 ∧
  (s.inReset = false → (s.lineTimer.isSome = true ↔ s.params.lineEnable = true)) ∧
  (∀ p, (s.port p).keepalive.getD 0 ≤ 25500)

/-- While PLAYING, the owner's record names the pattern that plays, and the step index is below its length; the time left
is never above 5040 ms (R49, Table 3.1). -/
def State.PlaySound (s : State) : Prop :=
  (∀ owner now, s.play = .playing owner now →
    ∃ r l, s.record owner.slot = some r ∧ r.pattern = now.pattern ∧ (s.entry now.pattern).body.layout = some l ∧
      now.index < l.length) ∧
  (∀ now, s.play.now = some now → now.timeLeft ≤ 5040)

/-! ### What an action on several records or entries comes to (R11, R24, R88, R89) -/

/-- Every part of the state but the slots, the Arrival List, the directory, the Free Extent List and the ports is the
same in s and t. -/
def State.SameElsewhere (s t : State) : Prop :=
  { t with slots := s.slots, arrival := s.arrival, directory := s.directory, free := s.free, ports := s.ports } = s

/-- The number of occupied records of pattern n that satisfy a test. -/
def State.namersWhere (s : State) (n : PatNo) (test : Record → Bool) : Nat :=
  (List.finRange 30).countP (fun i => (s.record i).any (fun r => decide (r.pattern = n) && test r))

/-- What an event about the record in a slot says of it (R4). -/
def State.about (s : State) (i : SlotNo) (r : Record) : RecordRef :=
  { handle := { slot := i, generation := (s.slot i).generation }, origin := r.origin, tag := r.tag,
    priority := r.current }

/-- The event an acknowledgement of the record in a slot posts: ACKED, FREED or none (R10). -/
def State.ackEvent (s : State) (who : AckParty) (i : SlotNo) : Option Event :=
  (s.record i).bind fun r =>
    match r.state with
    | .alerting => some (.record .acked (s.about i r) who.source)
    | .returned => some (.record .freed (s.about i r) who.source)
    | .acknowledged _ => none

/-- From s to t every occupied record has been acknowledged, oldest first: ALERTING became ACKNOWLEDGED with the
deadline stopped and muted no, RETURNED was freed, ACKNOWLEDGED did not change, and the events were posted in Arrival
List order (R11). -/
def State.AllAcknowledged (s : State) (who : AckParty) (t : State) : Prop :=
  (∀ i, t.slot i =
    match s.record i with
    | none => s.slot i
    | some r =>
      match r.state with
      | .alerting =>
        { s.slot i with record := some { r with state := .acknowledged who, deadline := none, muted := false } }
      | .returned => { generation := (s.slot i).generation + 1, record := none }
      | .acknowledged _ => s.slot i) ∧
  t.arrival = s.arrival.filter (fun i => (s.record i).all (fun r => decide (r.state ≠ .returned))) ∧
  (∀ n, t.entry n =
    { s.entry n with refs := (s.entry n).refs - s.namersWhere n (fun r => decide (r.state = .returned)) }) ∧
  t.ports = ((s.arrival.filterMap (s.ackEvent who)).foldl State.post s).ports ∧
  t.free = s.free ∧ s.SameElsewhere t

/-- A record that a close of its origin port frees: one that is not latching, or that is ACKNOWLEDGED (R24). -/
def Record.freedAtClose (r : Record) (p : Port) : Bool :=
  decide (r.origin = .host p) && (!r.latching || (!r.isAlerting && decide (r.state ≠ .returned)))

/-- A record that a close of its origin port makes RETURNED: a latching one that is ALERTING (R24). -/
def Record.returnedAtClose (r : Record) (p : Port) : Bool :=
  decide (r.origin = .host p) && r.latching && r.isAlerting

/-- The event the close of port p posts for the record in a slot: FREED, RETURNED or none (R24). -/
def State.closeEvent (s : State) (p : Port) (i : SlotNo) : Option Event :=
  (s.record i).bind fun r =>
    if r.freedAtClose p then some (.record .freed (s.about i r) (.port p))
    else if r.returnedAtClose p then some (.record .returned (s.about i r) (.port p))
    else none

/-- From s to t the records of the closing port p have been dealt with as the table of R24 gives, in Arrival List
order. -/
def State.RecordsClosed (s : State) (p : Port) (t : State) : Prop :=
  (∀ i, t.slot i =
    match s.record i with
    | none => s.slot i
    | some r =>
      if r.freedAtClose p then { generation := (s.slot i).generation + 1, record := none }
      else if r.returnedAtClose p then { s.slot i with record := some { r with state := .returned, deadline := none } }
      else s.slot i) ∧
  t.arrival = s.arrival.filter (fun i => (s.record i).all (fun r => !r.freedAtClose p)) ∧
  (∀ n, t.entry n =
    { s.entry n with refs := (s.entry n).refs - s.namersWhere n (fun r => r.freedAtClose p) }) ∧
  t.ports = ((s.arrival.filterMap (s.closeEvent p)).foldl State.post s).ports ∧
  t.free = s.free ∧ s.SameElsewhere t

/-- The user entries in LOADING whose definer is p, in ascending order of pattern number (R88, R89). -/
def State.loadingOf (s : State) (p : Port) : List PatNo :=
  userNumbers.filter fun n =>
    match (s.entry n).body with
    | .loading l _ => decide (l.definer = some p)
    | _ => false

/-- The layout of an entry with definer NONE, where its definer was p. -/
def Layout.leftBy (l : Layout) (p : Port) : Layout := if l.definer = some p then { l with definer := none } else l

/-- From s to t the user entries of port p have been dealt with: LOADING ones are discarded in ascending order of
number, each extent freed and merged and each discard posted; at a close READY and DAMAGED ones get definer NONE, at a
loss they are unchanged (R88, R89). -/
def State.EntriesLeft (s : State) (p : Port) (closing : Bool) (t : State) : Prop :=
  (∀ n, t.entry n =
    if isBuiltIn n then s.entry n
    else
      match (s.entry n).body with
      | .empty => s.entry n
      | .loading l _ => if l.definer = some p then { body := .empty, refs := 0 } else s.entry n
      | .ready l => if closing then { s.entry n with body := .ready (l.leftBy p) } else s.entry n
      | .damaged l => if closing then { s.entry n with body := .damaged (l.leftBy p) } else s.entry n) ∧
  t.free = ((s.loadingOf p).filterMap (fun n => (s.entry n).extent)).foldl (fun free x => insertExtent x free) s.free ∧
  t.ports = (((s.loadingOf p).map (fun n => Event.patternState n (.port p))).foldl State.post s).ports ∧
  t.slots = s.slots ∧ t.arrival = s.arrival ∧ s.SameElsewhere t

/-! ### The session of a port (R127, R130) -/

/-- The frame being sent by a transaction is no longer in its queue when the event queue is emptied (R120, R153). -/
def Transaction.eventsGone (x : Transaction) : Transaction :=
  { x with source := match x.source with | .event => .emptied | .overrun _ => .emptied | other => other }

/-- From x to y the session of a port opens: the event queue is emptied, the subscription takes its default and the
keepalive timer starts; the rest is kept (R127, steps 1 to 3). -/
def PortState.Opens (x : PortState) (c : Params) (y : PortState) : Prop :=
  y.session = .opened ∧ y.events = [] ∧ y.mask = { others := false, sound := false, system := true } ∧
  y.attention = true ∧ y.keepalive = (if c.keepalive = 0 then none else some (c.keepalive * 100)) ∧
  y.inbound = x.inbound ∧ y.replies = x.replies ∧ y.lastOutcome = x.lastOutcome ∧ y.selectLow = x.selectLow ∧
  y.transaction = x.transaction.map Transaction.eventsGone

/-- From x to y the session of a port closes: the event queue is emptied and the keepalive timer stops; the rest, the
subscription too, is kept (R130, steps 1 to 3). -/
def PortState.Closes (x y : PortState) : Prop :=
  y.session = .closed ∧ y.events = [] ∧ y.keepalive = none ∧ y.mask = x.mask ∧ y.attention = x.attention ∧
  y.inbound = x.inbound ∧ y.replies = x.replies ∧ y.lastOutcome = x.lastOutcome ∧ y.selectLow = x.selectLow ∧
  y.transaction = x.transaction.map Transaction.eventsGone

/-! ### What a step load that finds damage comes to (R65, R66) -/

/-- The READY entry n, with fields l, has become DAMAGED at a step load: PATTERN_STATE is posted, and where no entry was
DAMAGED, STORE_FAULT is raised with the number as its tag (R65, step 2; R85, R86). -/
def State.foundDamaged (s : State) (n : PatNo) (l : Layout) : State :=
  let marked := (s.setEntry n { s.entry n with body := .damaged l }).post (.patternState n .internal)
  if s.damagedCount = 0 then
    (marked.internalRaise 29
      { tag := BitVec.ofNat 16 n.val, pattern := 31, base := s.params.storeFaultPrio,
        ceiling := s.params.storeFaultPrio, lamps := 0b1000#4, latching := true, mode := .counted 3 3,
        interval := 0 }).1
  else marked

/-- The record q of slot i has been switched to pattern 28, with intro done no, and owns the Play Context with step 0 of
that pattern: tone 12, level 3, 500 ms (R65, steps 3 and 4; R66; Table 3.6). -/
def State.fellBack (s : State) (i : SlotNo) (q : Record) : State :=
  State.setPlay
    { s with
      slots := s.slots.set i { s.slot i with record := some { q with pattern := 28, introDone := false } }
      directory := ((s.dropRef q.pattern).takeRef 28).directory }
    (.playing { slot := i, generation := (s.slot i).generation }
      { pattern := 28, index := 0, timeLeft := 500, tone := 12, level := 3 })

/-! ### Whose turn it is (R135) -/

/-- How far a port stands in the cyclic order of the Executor's examination: 0 for the port after the one the pointer
names, 3 for that port itself. -/
def turnDistance (pointer p : Port) : Nat := (p.val + 3 - pointer.val) % 4

/-- The next taking is of this request: it heads the inbound queue of port p, and every port examined before p has no
request waiting (R135). -/
def State.Turn (s : State) (p : Port) (r : Request) (rest : List Request) : Prop :=
  (s.port p).inbound = r :: rest ∧
    ∀ q, turnDistance s.pointer q < turnDistance s.pointer p → (s.port q).inbound = []

/-- The Executor's next taking is of a request of this kind, from an OPEN port, with a payload of the right length
(R135; R140, steps 1 to 3). -/
def State.Taking (s : State) (k : Kind) (p : Port) (r : Request) (rest : List Request) : Prop :=
  s.Turn p r rest ∧ kindOf r.kind = some k ∧ lengthOk k r.payload = true ∧ (s.port p).session = .opened

/-- The reply OK to a request, with this payload, joins the queue of its port (R136, R137). -/
def State.answered (s : State) (p : Port) (r : Request) (payload : List Byte) : State :=
  s.postReply p { seq := r.seq, status := .ok, payload := payload }

/-- The reply that refuses a request, with this status and payload, joins the queue of its port (R137). -/
def State.refusedWith (s : State) (p : Port) (r : Request) (status : Status) (payload : List Byte) : State :=
  s.postReply p { seq := r.seq, status := status, payload := payload }

/-- The alert record of a RAISE's fields, as R5 and R7 set it: ALERTING at the base priority, not muted, sound due,
intro not done, the deadline as R14 starts it. -/
def RaiseFields.asRecord (f : RaiseFields) (raiser : Raiser) : Record :=
  { raiser := raiser, tag := f.tag, pattern := f.pattern, base := f.base, ceiling := f.ceiling, current := f.base,
    lamps := f.lamps, latching := f.latching, mode := f.mode, interval := f.interval,
    deadline := if f.interval ≠ 0 ∧ f.base < f.ceiling then some (f.interval * 1000) else none,
    state := .alerting, muted := false, soundDue := true, introDone := false }

/-- The handle that a request of two payload bytes names is current, and its slot holds this record (R2). -/
def State.Names (s : State) (r : Request) (i : SlotNo) (q : Record) : Prop :=
  r.payload = [byte i.val, (s.slot i).generation] ∧ s.record i = some q

/-- The commands that stand for the Executor's taking of a request, each with the kind it takes. -/
def requestCommands : List (Instr × Kind) :=
  [(.hello, .hello), (.bye, .bye), (.subscribe, .subscribe), (.raise, .raise), (.clear, .clear), (.ack, .ack),
   (.ackAll, .ackAll), (.silence, .silence), (.alertInfo, .alertInfo), (.alertList, .alertList),
   (.patternDefine, .patternDefine), (.patternAppend, .patternAppend), (.patternCommit, .patternCommit),
   (.patternDelete, .patternDelete), (.patternInfo, .patternInfo), (.patternRead, .patternRead), (.status, .status),
   (.configGet, .configGet), (.configSet, .configSet)]

end Sys2Proof.Machine
end

