-- ==== Sys2Proof/WellFormed.lean ====
section
/-! DEFINITION. When a command is well formed: its operands name something the part has. Ports, pins and bytes are
in range by their types; a step word index and a slot number are checked here. -/

namespace Sys2Proof

/-- The operands of a command name a place that exists: a step word index below 1024 (R70) and a slot number 0 to 29
(R1). -/
def Instr.wellFormed : Instr → Bool
  | .stepWordParityLoss index => decide (index < Config.stepWords)
  | .escalationExpiry slot => decide (slot < 30)
  | .powerOnReset | .pinReset | .resetEnd _ _ | .tick | .clkinStop | .clkinResume
  | .chipSelectFall _ | .chipSelectRise _ | .sckRisingEdge _ _
  | .unknownKind | .hello | .bye | .subscribe | .raise | .clear | .ack | .ackAll | .silence
  | .alertInfo | .alertList | .patternDefine | .patternAppend | .patternCommit | .patternDelete
  | .patternInfo | .patternRead | .status | .configGet | .configSet
  | .stepEnd | .muteTimerExpiry | .keepaliveExpiry _ | .lineSample _ _
  | .debounceSample _ _ _ | .panelAck | .panelSilence | .buttonReleaseAccepted _
  | .lampTestBegin | .lampTestEnd | .flashClockTick => true

end Sys2Proof
end

