-- ==== Sys2Proof/Certificates/Slice0/Obligations.lean ====
section
/-! DEFINITION. The statements about the model, for the provers: each says what a numbered rule of the data book says,
or what follows from one, about the commands of the machine. The terms they use beside the model's own are in
Sys2Proof/Safety.lean. -/

open Sys2Proof Sys2Proof.Machine

/-! ### The machine and its queue of commands -/

/-- With a command at the front of the queue a step is that command on the state with the rest of the queue; on an
empty queue the block idles (the model's choice, log 6). -/
def Obligations.StepTakesFrontCommand : Prop :=
  (∀ (c : Instr) (s : State) (rest : List Instr), s.pending = c :: rest → step s = exec c { s with pending := rest }) ∧
  (∀ s : State, s.pending = [] → step s = .next s)

/-! ### Resets (chapters 1 to 10) -/

/-- R90, with what the other blocks' rules give at a power-on reset: every block but the Configuration Table takes its reset
state, whatever the state before. (The parameters take their defaults as the reset ends: ResetEndsWithDefaults.) -/
def Obligations.PowerOnResetEmptiesThePart : Prop :=
  ∀ s : State, ∃ t, exec .powerOnReset s = .next t ∧
    (∀ n, isBuiltIn n = false → t.entry n = { body := .empty, refs := 0 }) ∧
    t.entry 28 = { body := .ready { definer := none, start := none, length := 2, loopIndex := 0, pace := 1 }, refs := 0 } ∧
    t.entry 29 = { body := .ready { definer := none, start := none, length := 4, loopIndex := 0, pace := 1 }, refs := 0 } ∧
    t.entry 30 = { body := .ready { definer := none, start := none, length := 2, loopIndex := 0, pace := 4 }, refs := 0 } ∧
    t.entry 31 = { body := .ready { definer := none, start := none, length := 3, loopIndex := 0, pace := 2 }, refs := 0 } ∧
    t.free = [{ start := 0, length := 1024 }] ∧ t.damagedCount = 0 ∧
    (∀ i, t.slot i = { generation := 0, record := none }) ∧ t.arrival = [] ∧ t.mute = none ∧ t.play = .idle ∧
    t.panel.ack.state = .released ∧ t.panel.silence.state = .released ∧ t.panel.test.state = .released ∧
    t.panel.ack.count = 0 ∧ t.panel.silence.count = 0 ∧ t.panel.test.count = 0 ∧
    t.lampTest = false ∧ t.flashPhase = 0 ∧ (∀ k, t.lampLit k = false) ∧ t.drive = none ∧ t.line = .normal 0 ∧
    (∀ p, (t.port p).session = .closed ∧ (t.port p).keepalive = none ∧ (t.port p).inbound = [] ∧
      (t.port p).replies = [] ∧ (t.port p).events = [] ∧
      (t.port p).mask = { others := false, sound := false, system := true } ∧ (t.port p).attention = true ∧
      (t.port p).lastOutcome = .none ∧ (t.port p).transaction = none ∧ t.attention p = false) ∧
    t.pointer = 3 ∧ t.inReset = true

/-- R91, with what the other blocks' rules give at a pin reset: READY and DAMAGED user entries are kept with definer
NONE and reference count 0, LOADING ones are discarded and their extents merged in ascending order of number, the Step
Store is unchanged, no event is posted, and every other block but the Configuration Table takes its reset state. (The
parameters take their defaults as the reset ends: ResetEndsWithDefaults.) -/
def Obligations.PinResetKeepsPatterns : Prop :=
  ∀ s : State, ∃ t, exec .pinReset s = .next t ∧
    (∀ n, isBuiltIn n = false → t.entry n =
      match (s.entry n).body with
      | .ready l => { body := .ready { l with definer := none }, refs := 0 }
      | .damaged l => { body := .damaged { l with definer := none }, refs := 0 }
      | _ => { body := .empty, refs := 0 }) ∧
    (∀ n, isBuiltIn n = true → t.entry n = State.reset.entry n) ∧
    t.free =
      (userNumbers.filterMap (fun n =>
        match (s.entry n).body with
        | .loading _ _ => (s.entry n).extent
        | _ => none)).foldl (fun free x => insertExtent x free) s.free ∧
    t.store = s.store ∧ t.damagedCount = s.damagedCount ∧
    (∀ i, t.slot i = { generation := 0, record := none }) ∧ t.arrival = [] ∧ t.mute = none ∧ t.play = .idle ∧
    t.panel = State.reset.panel ∧ t.lampTest = false ∧ t.flashPhase = 0 ∧ (∀ k, t.lampLit k = false) ∧
    t.drive = none ∧ t.line = .normal 0 ∧
    (∀ p, (t.port p).session = .closed ∧ (t.port p).keepalive = none ∧ (t.port p).load = 0 ∧
      (t.port p).events = [] ∧ (t.port p).mask = { others := false, sound := false, system := true } ∧
      (t.port p).attention = true ∧ (t.port p).lastOutcome = .none ∧ (t.port p).transaction = none ∧
      t.attention p = false) ∧
    t.pointer = 3 ∧ t.inReset = true

/-- R138 and R163: the end of a reset gives every parameter from 1 to 12 its default and the
profile the number of the straps, and starts the line sample timer (R116); where no DAMAGED entry was kept, nothing else
changes. R27: a reset that kept a DAMAGED entry ends
with STORE_FAULT raised, its tag the lowest DAMAGED number, its priority the default 3; it is the one record, and it starts
on pattern 31 from IDLE. No port learns of it, because none is OPEN.
(That RESET_END does nothing where no reset lasts is the model's reading, log 10.) -/
def Obligations.ResetEndsWithDefaults : Prop :=
  let defaults := fun (prof1 prof0 : Level) =>
    ({ keepalive := 20, mutePeriod := 300, urgent := 6, quota := 12, portLostPrio := 5, sounderFaultPrio := 4,
       storeFaultPrio := 3, lineEnable := true, senseLow := 20, senseHigh := 200, substitute := some 3,
       panelEnable := true,
       profile :=
         match prof1, prof0 with
         | .low, .low => 0
         | .low, .high => 1
         | .high, .low => 2
         | .high, .high => 3 } : Params)
  (∀ (s : State) (prof1 prof0 : Level), s.inReset = false → exec (.resetEnd prof1 prof0) s = .next s) ∧
  (∀ (s : State) (prof1 prof0 : Level), s.inReset = true →
     (∀ n, isBuiltIn n = false → (s.entry n).body.isDamaged = false) →
     exec (.resetEnd prof1 prof0) s = .next
       { s with params := defaults prof1 prof0, lineTimer := some 100, inReset := false }) ∧
  (∀ (s : State) (prof1 prof0 : Level) (n : PatNo), s.inReset = true →
     isBuiltIn n = false → (s.entry n).body.isDamaged = true →
     (∀ m, m < n → (s.entry m).body.isDamaged = false) →
     (∀ i, s.record i = none) → s.arrival = [] → s.play = .idle → s.line = .normal 0 →
     (∀ p, (s.port p).session = .closed) → s.BuiltInsStand →
     ∃ t, exec (.resetEnd prof1 prof0) s = .next t ∧
       t.record 29 = some
         { raiser := .internal, tag := BitVec.ofNat 16 n.val, pattern := 31, base := 3, ceiling := 3, current := 3,
           lamps := 0b1000#4, latching := true, mode := .counted 3 3, interval := 0, deadline := none,
           state := .alerting, muted := false, soundDue := true, introDone := false } ∧
       (∀ i, i ≠ 29 → t.slot i = s.slot i) ∧ (t.slot 29).generation = (s.slot 29).generation ∧
       t.arrival = [29] ∧ t.order = [29] ∧
       t.play = .playing { slot := 29, generation := (s.slot 29).generation }
         { pattern := 31, index := 0, timeLeft := 200, tone := 16, level := 2 } ∧
       t.drive = some { frequency := 1800, duty := 75 } ∧
       (∀ m, t.entry m = if m = 31 then { s.entry 31 with refs := (s.entry 31).refs + 1 } else s.entry m) ∧
       (∀ p, t.port p = s.port p) ∧ t.params = defaults prof1 prof0 ∧ t.lineTimer = some 100 ∧ t.inReset = false)

/-! ### The Time Base (chapter 10) -/

/-- R162, R14, R46, R54, R106, R131: a tick counts down every running timer by one and changes nothing else but the
substitute role, which follows its parameter (R100), and the bridge's own time; while CLKIN is absent or a reset lasts
no timer moves; CLKIN_STOP and CLKIN_RESUME change CLKIN alone. (That a timer stays at 0 until its expiry is taken is the
model's choice, log 5; that the flash phase and the debounce counts, timers of Table 10.2 too, advance at the commands
FLASH_CLOCK_TICK and DEBOUNCE_SAMPLE and not at TICK is the model's choice, log 8.) -/
def Obligations.TickAdvancesTimers : Prop :=
  (∀ s : State, s.clkin = true → s.inReset = false → ∃ t, exec .tick s = .next t ∧
    (s.play = .idle → t.play = .idle) ∧
    (∀ owner now, s.play = .playing owner now → t.play = .playing owner { now with timeLeft := now.timeLeft - 1 }) ∧
    (∀ now, s.play = .tail now → t.play = .tail { now with timeLeft := now.timeLeft - 1 }) ∧
    t.mute = s.mute.map (fun left => left - 1) ∧ t.lineTimer = s.lineTimer.map (fun left => left - 1) ∧
    (∀ i, (t.slot i).generation = (s.slot i).generation ∧
      t.record i = (s.record i).map (fun r => { r with deadline := r.deadline.map (fun left => left - 1) })) ∧
    (∀ p, t.port p = { s.port p with keepalive := (s.port p).keepalive.map (fun left => left - 1) }) ∧
    t.substituteRole = s.params.substitute ∧
    { t with play := s.play, mute := s.mute, lineTimer := s.lineTimer, slots := s.slots, ports := s.ports,
             substituteRole := s.substituteRole, driveMs := s.driveMs } = s) ∧
  (∀ s : State, s.clkin = false ∨ s.inReset = true →
    exec .tick s = .next s ∧ exec .flashClockTick s = .next s ∧
      ∀ ackPin silencePin testPin, exec (.debounceSample ackPin silencePin testPin) s = .next s) ∧
  (∀ s : State, exec .clkinStop s = .next { s with clkin := false } ∧
    exec .clkinResume s = .next { s with clkin := true })

/-! ### The lamps and the panel (chapter 5) -/

/-- R97: the indication of a lamp is the first that applies of FAST, SLOW, STEADY and OFF, over the occupied records
whose lamp mask includes it. R96, R99, R100 and R101: on the output come first the lamp test, then the engaged substitute
lamp, lit exactly while the tone in the Play Context is not 0; a FAST lamp is lit while the remainder of the flash phase
on division by 250 is 0 to 124, a SLOW one while the phase is 0 to 499; and the phase advances by one at each tick and
returns to 0 after 999. -/
def Obligations.LampsShowTheRecords : Prop :=
  (∀ (s : State) (k : Lamp),
     let names := fun (test : Record → Prop) => ∃ i, ∃ r ∈ s.record i, r.lamps.getLsbD k.val = true ∧ test r
     let alerting := names (fun r => r.state = .alerting)
     let returned := names (fun r => r.state = .returned)
     let any := names (fun _ => True)
     (s.indication k = .fast ↔ alerting) ∧
     (s.indication k = .slow ↔ ¬ alerting ∧ returned) ∧
     (s.indication k = .steady ↔ ¬ alerting ∧ ¬ returned ∧ any) ∧
     (s.indication k = .off ↔ ¬ any) ∧
     (s.inReset = false → s.lampTest = true → s.lampLit k = true) ∧
     (s.inReset = false → s.lampTest = false → s.line.isFault = true → s.substituteRole = some k →
       (s.lampLit k = true ↔ ∃ now, s.play.now = some now ∧ now.tone ≠ 0)) ∧
     (s.inReset = false → s.lampTest = false → (s.line.isFault = false ∨ s.substituteRole ≠ some k) →
       s.lampLit k = (s.indication k).litAt s.flashPhase)) ∧
  (∀ (s : State) (k : Lamp), s.inReset = false → s.lampTest = false → s.engaged k = false →
    (s.indication k = .fast → (s.lampLit k = true ↔ s.flashPhase % 250 ≤ 124)) ∧
    (s.indication k = .slow → (s.lampLit k = true ↔ s.flashPhase ≤ 499)) ∧
    (s.indication k = .steady → s.lampLit k = true) ∧ (s.indication k = .off → s.lampLit k = false)) ∧
  (∀ s : State, s.clkin = true → s.inReset = false → s.flashPhase ≤ 999 →
    exec .flashClockTick s = .next { s with flashPhase := (s.flashPhase + 1) % 1000 })

/-- R92: each button's debounce state and count move at a sample as Table 5.1 gives, independently of the others and
with nothing else changed; from RELEASED the twentieth consecutive low sample accepts a press, not one before, and from PRESSED
the twentieth consecutive high sample a release. (That no sample is taken while CLKIN is absent or a reset lasts is R162.) -/
def Obligations.ButtonsAreDebounced : Prop :=
  (∀ (s : State) (ackPin silencePin testPin : Level), s.clkin = true → s.inReset = false →
    exec (.debounceSample ackPin silencePin testPin) s = .next
      { s with panel :=
        { ack := s.panel.ack.sample ackPin, silence := s.panel.silence.sample silencePin,
          test := s.panel.test.sample testPin } }) ∧
  (∀ b : Button,
    (b.state = .released → b.sample .high = b) ∧
    (b.state = .released → b.sample .low = { b with state := .pressing, count := 1 }) ∧
    (b.state = .pressing → b.count < 19 → b.sample .low = { b with count := b.count + 1 }) ∧
    (b.state = .pressing → b.count = 19 → b.sample .low = { state := .pressed, count := 0, accepted := some .press }) ∧
    (b.state = .pressing → b.sample .high = { b with state := .released, count := 0 }) ∧
    (b.state = .pressed → b.sample .low = b) ∧
    (b.state = .pressed → b.sample .high = { b with state := .releasing, count := 1 }) ∧
    (b.state = .releasing → b.count < 19 → b.sample .high = { b with count := b.count + 1 }) ∧
    (b.state = .releasing → b.count = 19 →
      b.sample .high = { state := .released, count := 0, accepted := some .release }) ∧
    (b.state = .releasing → b.sample .low = { b with state := .pressed, count := 0 })) ∧
  (∀ (b : Button) (n : Nat), b.state = .released → b.count = 0 → b.accepted = none → 1 ≤ n → n ≤ 20 →
    (fun x : Button => x.sample .low)^[n] b =
      if n < 20 then { state := .pressing, count := n, accepted := none }
      else { state := .pressed, count := 0, accepted := some .press }) ∧
  (∀ (b : Button) (n : Nat), b.state = .pressed → b.count = 0 → b.accepted = none → 1 ≤ n → n ≤ 20 →
    (fun x : Button => x.sample .high)^[n] b =
      if n < 20 then { state := .releasing, count := n, accepted := none }
      else { state := .released, count := 0, accepted := some .release })

/-- R93, Table 5.2: with panel enable off an accepted ACK or SILENCE press is ignored; an accepted release of ACK or
SILENCE has no effect; an accepted TEST press begins the lamp test and an accepted TEST release ends it, whatever panel
enable holds. The accepted change is handed on once, and each of the five commands changes nothing where its button
has accepted no such change. (That an accepted change waits for the command that hands it on is the model's choice,
log 9.) -/
def Obligations.AcceptedChangesAct : Prop :=
  (∀ s : State, s.panel.ack.accepted = some .press → s.params.panelEnable = false →
    exec .panelAck s = .next { s with panel := { s.panel with ack := { s.panel.ack with accepted := none } } }) ∧
  (∀ s : State, s.panel.silence.accepted = some .press → s.params.panelEnable = false →
    exec .panelSilence s = .next
      { s with panel := { s.panel with silence := { s.panel.silence with accepted := none } } }) ∧
  (∀ s : State, s.panel.ack.accepted = some .release →
    exec (.buttonReleaseAccepted .ack) s = .next
      { s with panel := { s.panel with ack := { s.panel.ack with accepted := none } } }) ∧
  (∀ s : State, s.panel.silence.accepted = some .release →
    exec (.buttonReleaseAccepted .silence) s = .next
      { s with panel := { s.panel with silence := { s.panel.silence with accepted := none } } }) ∧
  (∀ s : State, s.panel.test.accepted = some .press →
    exec .lampTestBegin s = .next
      { s with panel := { s.panel with test := { s.panel.test with accepted := none } }, lampTest := true }) ∧
  (∀ s : State, s.panel.test.accepted = some .release →
    exec .lampTestEnd s = .next
      { s with panel := { s.panel with test := { s.panel.test with accepted := none } }, lampTest := false }) ∧
  (∀ s : State,
    (s.panel.ack.accepted ≠ some .press → exec .panelAck s = .next s) ∧
    (s.panel.silence.accepted ≠ some .press → exec .panelSilence s = .next s) ∧
    (s.panel.ack.accepted ≠ some .release → exec (.buttonReleaseAccepted .ack) s = .next s) ∧
    (s.panel.silence.accepted ≠ some .release → exec (.buttonReleaseAccepted .silence) s = .next s) ∧
    (s.panel.test.accepted ≠ some .press → exec .lampTestBegin s = .next s) ∧
    (s.panel.test.accepted ≠ some .release → exec .lampTestEnd s = .next s))

/-! ### The Alert Table (chapter 1) -/

/-- R11 and R94: ACK_ALL from a port holding A, and an accepted ACK press with panel enable on, acknowledge every
occupied record, oldest first; ACK_ALL's reply carries the number acknowledged and the number freed; after the press no
record is left to sound, and the Play Context is IDLE, or the tail that was in progress. -/
def Obligations.EveryRecordAcknowledged : Prop :=
  (∀ (s : State) (p : Port) (r : Request) (rest : List Request), s.ArrivalExact →
    s.Taking .ackAll p r rest → (s.rights p).a = true →
    ∃ s1 : State, (s.removeRequest p).AllAcknowledged (.port p) s1 ∧
      exec .ackAll s = .next
        ((s1.arbitrate .byCut).answered p r
          [byte ((List.finRange 30).countP (fun i => (s.record i).any (fun q => decide (q.state = .alerting)))),
           byte ((List.finRange 30).countP (fun i => (s.record i).any (fun q => decide (q.state = .returned))))])) ∧
  (∀ s : State, s.ArrivalExact → s.panel.ack.accepted = some .press → s.params.panelEnable = true →
    ∃ s1 t : State,
      State.AllAcknowledged { s with panel := { s.panel with ack := { s.panel.ack with accepted := none } } } .panel s1 ∧
      exec .panelAck s = .next t ∧ t = s1.arbitrate .byCut ∧ t.order = [] ∧
      (t.play = .idle ∨ ∃ now, s.play = .tail now ∧ t.play = .tail now))

/-- R12: freeing a record posts FREED with the handle before it, takes the slot off the Arrival List, lowers the
reference count of its pattern by one, and leaves the slot FREE with its generation advanced by one, 0 after 255. -/
def Obligations.FreeingFollowsItsSteps : Prop :=
  ∀ (s : State) (i : SlotNo) (r : Record) (source : Source), s.record i = some r →
    s.freeRecord i source =
      { s.post (.record .freed
          { handle := { slot := i, generation := (s.slot i).generation }, origin := r.origin, tag := r.tag,
            priority := r.current } source) with
        arrival := s.arrival.erase i
        directory := s.directory.set r.pattern { s.entry r.pattern with refs := (s.entry r.pattern).refs - 1 }
        slots := s.slots.set i { generation := (s.slot i).generation + 1, record := none } } ∧
    ((s.slot i).generation = 255#8 → ((s.freeRecord i source).slot i).generation = 0#8)

/-- R5: what a RAISE carries, and that a field out of its range, or a ceiling below the base priority, is refused with
BAD_VALUE (Table 11.5). -/
def Obligations.RaiseFieldsAreChecked : Prop :=
  (∀ tagHi tagLo pattern base ceiling lamps mode count interval : Byte,
    let payload := [tagHi, tagLo, pattern, base, ceiling, lamps, mode, count, interval]
    let counted := mode.getLsbD 1
    if pattern.toNat ≤ 31 ∧ (1 ≤ base.toNat ∧ base.toNat ≤ 7) ∧ (1 ≤ ceiling.toNat ∧ ceiling.toNat ≤ 7) ∧
        base.toNat ≤ ceiling.toNat ∧ lamps.toNat ≤ 15 ∧ mode.toNat ≤ 3 ∧ (counted = true → 1 ≤ count.toNat) then
      ∃ f, raiseFields payload = some f ∧ f.tag.toNat = 256 * tagHi.toNat + tagLo.toNat ∧
        f.pattern.val = pattern.toNat ∧ f.base = base.toNat ∧ f.ceiling = ceiling.toNat ∧
        f.lamps.toNat = lamps.toNat ∧ f.latching = mode.getLsbD 0 ∧ f.interval = interval.toNat ∧
        f.mode = if counted then .counted count.toNat count.toNat else .continuous
    else raiseFields payload = none) ∧
  (∀ (s : State) (p : Port) (r : Request) (rest : List Request),
    s.Taking .raise p r rest → raiseFields r.payload = none →
    exec .raise s = .next ((s.removeRequest p).refusedWith p r .badValue []))

/-- R5: a RAISE for which no record of the port has the tag, on a usable pattern, with the holding below the quota and a
host slot FREE (R8: the holding is the number of occupied records whose origin is the port, in any state, orphaned or
not), creates a record in the lowest FREE host slot: the fields as R5 sets them, the tail of the Arrival List, one more
reference to its pattern, RAISED posted, then the Arbiter's decision, then the reply OK, NEW and the handle. -/
def Obligations.RaiseCreatesRecord : Prop :=
  ∀ (s : State) (p : Port) (r : Request) (rest : List Request) (f : RaiseFields) (l : Layout) (i : SlotNo),
    let holding := (List.finRange 30).countP (fun j => (s.record j).any (fun q =>
      match q.raiser with | .host o _ => decide (o = p) | .internal => false))
    s.Taking .raise p r rest → raiseFields r.payload = some f →
    (∀ j, ∀ q ∈ s.record j, q.origin = .host p → q.tag ≠ f.tag) →
    (s.entry f.pattern).body = .ready l → holding < s.params.quota →
    i.val < 24 → s.record i = none → (∀ j, j < i → s.record j ≠ none) →
    exec .raise s = .next
      ((State.arbitrate
        (State.post
          { s.removeRequest p with
            slots := s.slots.set i { s.slot i with record := some (f.asRecord (.host p false)) }
            arrival := s.arrival ++ [i]
            directory := s.directory.set f.pattern { s.entry f.pattern with refs := (s.entry f.pattern).refs + 1 } }
          (.record .raised
            { handle := { slot := i, generation := (s.slot i).generation }, origin := .host p, tag := f.tag,
              priority := f.base } (.port p)))
        .byRelease).answered p r [0#8, byte i.val, (s.slot i).generation])

/-- R6 and R8: a RAISE that matches an ALERTING record is answered EXISTING and changes no record, whatever its pattern,
the quota or the table; a RAISE for a new record is refused, in this order, for a pattern that is not usable, for a
holding (the number of occupied records whose origin is the port, in any state, orphaned or not) at or above the quota, and
for a table whose 24 host slots are occupied. -/
def Obligations.RaiseExistingOrRefused : Prop :=
  (∀ (s : State) (p : Port) (r : Request) (rest : List Request) (f : RaiseFields) (i : SlotNo) (q : Record),
    s.TagsDistinct → s.Taking .raise p r rest → raiseFields r.payload = some f →
    s.record i = some q → q.origin = .host p → q.tag = f.tag → q.state = .alerting →
    exec .raise s = .next ((s.removeRequest p).answered p r [1#8, byte i.val, (s.slot i).generation])) ∧
  (∀ (s : State) (p : Port) (r : Request) (rest : List Request) (f : RaiseFields),
    let holding := (List.finRange 30).countP (fun j => (s.record j).any (fun q =>
      match q.raiser with | .host o _ => decide (o = p) | .internal => false))
    s.Taking .raise p r rest → raiseFields r.payload = some f →
    (∀ j, ∀ q ∈ s.record j, q.origin = .host p → q.tag ≠ f.tag) →
    ((s.entry f.pattern).body = .empty ∨ (∃ l fill, (s.entry f.pattern).body = .loading l fill) →
      exec .raise s = .next ((s.removeRequest p).refusedWith p r .patternNotReady [])) ∧
    ((∃ l, (s.entry f.pattern).body = .damaged l) →
      exec .raise s = .next ((s.removeRequest p).refusedWith p r .patternDamaged [])) ∧
    ((∃ l, (s.entry f.pattern).body = .ready l) → s.params.quota ≤ holding →
      exec .raise s = .next ((s.removeRequest p).refusedWith p r .quota [])) ∧
    ((∃ l, (s.entry f.pattern).body = .ready l) → holding < s.params.quota →
      (∀ i : SlotNo, i.val < 24 → s.record i ≠ none) →
      exec .raise s = .next ((s.removeRequest p).refusedWith p r .tableFull [])))

/-- R7: a RAISE that matches an ACKNOWLEDGED or RETURNED record re-alerts it: refused where the pattern is not usable;
otherwise every alert parameter and running field as R7 sets it, the tail of the Arrival List, the reference counts moved
where the pattern differs, REALERTED posted, the generation kept, and the reply OK, REALERTED and the handle. -/
def Obligations.RaiseRealertsRecord : Prop :=
  ∀ (s : State) (p : Port) (r : Request) (rest : List Request) (f : RaiseFields) (i : SlotNo) (q : Record),
    s.TagsDistinct → s.Taking .raise p r rest → raiseFields r.payload = some f →
    s.record i = some q → q.origin = .host p → q.tag = f.tag → q.state ≠ .alerting →
    ((s.entry f.pattern).body = .empty ∨ (∃ l fill, (s.entry f.pattern).body = .loading l fill) →
      exec .raise s = .next ((s.removeRequest p).refusedWith p r .patternNotReady [])) ∧
    ((∃ l, (s.entry f.pattern).body = .damaged l) →
      exec .raise s = .next ((s.removeRequest p).refusedWith p r .patternDamaged [])) ∧
    ((∃ l, (s.entry f.pattern).body = .ready l) →
      exec .raise s = .next
        ((State.arbitrate
          (State.post
            { s.removeRequest p with
              slots := s.slots.set i { s.slot i with record := some (f.asRecord q.raiser) }
              arrival := s.arrival.erase i ++ [i]
              directory :=
                if f.pattern = q.pattern then s.directory
                else ((s.dropRef q.pattern).takeRef f.pattern).directory }
            (.record .realerted
              { handle := { slot := i, generation := (s.slot i).generation }, origin := .host p, tag := f.tag,
                priority := f.base } (.port p)))
          .byRelease).answered p r [2#8, byte i.val, (s.slot i).generation]))

/-- R2 and R140: CLEAR, ACK and ALERT_INFO of a slot number above 29 are refused with BAD_VALUE, and of a handle that
is stale, because its slot is FREE or holds another generation, with STALE_HANDLE; the state is otherwise unchanged. -/
def Obligations.StaleHandlesAreRefused : Prop :=
  ∀ (c : Instr) (k : Kind) (s : State) (p : Port) (r : Request) (rest : List Request) (slot generation : Byte),
    (c, k) ∈ [(Instr.clear, Kind.clear), (.ack, .ack), (.alertInfo, .alertInfo)] →
    s.Taking k p r rest → r.payload = [slot, generation] →
    (30 ≤ slot.toNat → exec c s = .next ((s.removeRequest p).refusedWith p r .badValue [])) ∧
    (∀ i : SlotNo, slot.toNat = i.val → (s.record i = none ∨ (s.slot i).generation ≠ generation) →
      exec c s = .next ((s.removeRequest p).refusedWith p r .staleHandle []))

/-- R9: who may clear a record, and what becomes of it: an internal record and another port's record that is not
orphaned, or is orphaned where the port lacks A, are refused with NOT_OWNER; a latching ALERTING record becomes RETURNED
with its deadline stopped and its muted, sound-due and orphaned fields kept; a non-latching ALERTING or an ACKNOWLEDGED
record is freed; a RETURNED record does not change. The reply carries RETURNED or FREE. -/
def Obligations.ClearActsByState : Prop :=
  ∀ (s : State) (p : Port) (r : Request) (rest : List Request) (i : SlotNo) (q : Record),
    s.Taking .clear p r rest → s.Names r i q →
    (q.raiser = .internal ∨
        (∃ o orphaned, q.raiser = .host o orphaned ∧ o ≠ p ∧ (orphaned = false ∨ (s.rights p).a = false)) →
      exec .clear s = .next ((s.removeRequest p).refusedWith p r .notOwner [])) ∧
    ((∃ o orphaned, q.raiser = .host o orphaned ∧ (o = p ∨ (orphaned = true ∧ (s.rights p).a = true))) →
      (q.state = .alerting → q.latching = true →
        exec .clear s = .next
          ((State.arbitrate
            (State.post ((s.removeRequest p).setRecord i { q with state := .returned, deadline := none })
              (.record .returned (s.about i q) (.port p))) .byRelease).answered p r [3#8])) ∧
      ((q.state = .alerting ∧ q.latching = false) ∨ (∃ who, q.state = .acknowledged who) →
        exec .clear s = .next
          ((((s.removeRequest p).freeRecord i (.port p)).arbitrate .byRelease).answered p r [0#8])) ∧
      (q.state = .returned → exec .clear s = .next ((s.removeRequest p).answered p r [3#8])))

/-- R10: a port with A may acknowledge any record, one with R alone those of its own origin, else NOT_OWNER; ALERTING
becomes ACKNOWLEDGED by the port, with the deadline stopped and muted no, and ACKED posted; RETURNED is freed;
ACKNOWLEDGED does not change. The reply carries ACKNOWLEDGED or FREE. -/
def Obligations.AckActsByState : Prop :=
  ∀ (s : State) (p : Port) (r : Request) (rest : List Request) (i : SlotNo) (q : Record),
    s.Taking .ack p r rest → s.Names r i q →
    ((s.rights p).a = false → q.origin ≠ .host p →
      exec .ack s = .next ((s.removeRequest p).refusedWith p r .notOwner [])) ∧
    ((s.rights p).a = true ∨ q.origin = .host p →
      (q.state = .alerting →
        exec .ack s = .next
          ((State.arbitrate
            (State.post
              ((s.removeRequest p).setRecord i
                { q with state := .acknowledged (.port p), deadline := none, muted := false })
              (.record .acked (s.about i q) (.port p))) .byCut).answered p r [2#8])) ∧
      (q.state = .returned →
        exec .ack s = .next
          ((((s.removeRequest p).freeRecord i (.port p)).arbitrate .byCut).answered p r [0#8])) ∧
      ((∃ who, q.state = .acknowledged who) →
        exec .ack s = .next ((s.removeRequest p).answered p r [2#8])))

/-- R21 and R22: an internal raise creates a record in a FREE slot, leaves an ALERTING one and re-alerts an ACKNOWLEDGED
or RETURNED one; an internal return makes ALERTING RETURNED, frees ACKNOWLEDGED and leaves RETURNED and FREE. The second
component says whether a record changed. -/
def Obligations.InternalRecordsFollowTheirCause : Prop :=
  ∀ (s : State) (i : SlotNo) (f : RaiseFields),
    (s.record i = none →
      s.internalRaise i f =
        (State.post
          { s with
            slots := s.slots.set i { s.slot i with record := some (f.asRecord .internal) }
            arrival := s.arrival ++ [i]
            directory := s.directory.set f.pattern { s.entry f.pattern with refs := (s.entry f.pattern).refs + 1 } }
          (.record .raised
            { handle := { slot := i, generation := (s.slot i).generation }, origin := .internal, tag := f.tag,
              priority := f.base } .internal), true) ∧
      s.internalReturn i = (s, false)) ∧
    (∀ q, s.record i = some q → q.raiser = .internal →
      (q.state = .alerting → s.internalRaise i f = (s, false) ∧
        s.internalReturn i =
          (State.post (s.setRecord i { q with state := .returned, deadline := none })
            (.record .returned (s.about i q) .internal), true)) ∧
      (q.state ≠ .alerting →
        s.internalRaise i f =
          (State.post
            { s with
              slots := s.slots.set i { s.slot i with record := some (f.asRecord .internal) }
              arrival := s.arrival.erase i ++ [i]
              directory :=
                if f.pattern = q.pattern then s.directory
                else ((s.dropRef q.pattern).takeRef f.pattern).directory }
            (.record .realerted
              { handle := { slot := i, generation := (s.slot i).generation }, origin := .internal, tag := f.tag,
                priority := f.base } .internal), true)) ∧
      ((∃ who, q.state = .acknowledged who) → s.internalReturn i = (s.freeRecord i .internal, true)) ∧
      (q.state = .returned → s.internalReturn i = (s, false)))

/-- R15: an escalation deadline that has reached 0 raises the priority by one, clears muted, makes sound due yes, resets
cycles left to n, starts the deadline again below the ceiling, keeps intro done and the place on the Arrival List, and
posts ESCALATED with TIMER as its source; the Arbiter then decides. A slot number above 29 names no slot, and the command
faults (the model's choice, log 18). R46: a mute
timer that has reached 0 stops, the flag of every occupied record is cleared, the Arbiter takes one decision, and
RESOUNDED is posted with the number of flags that were set, be it 0 (that the SOUNDING of a start the decision brings comes
before it is the model's reading, log 12). Where the slot is FREE, or its record's deadline is not running or not at 0, an
ESCALATION_EXPIRY changes nothing, and where the mute timer is stopped or not at 0, a MUTE_TIMER_EXPIRY changes nothing
(R15, R47; that an expiry is a command with this condition is the model's choice, log 5). -/
def Obligations.EscalationAndMuteExpiriesAct : Prop :=
  (∀ (s : State) (i : SlotNo) (q : Record), s.record i = some q → q.deadline = some 0 → q.state = .alerting →
    q.current < q.ceiling →
    let raised : Record :=
      { q with
        current := q.current + 1, muted := false, soundDue := true
        mode := match q.mode with | .continuous => .continuous | .counted n _ => .counted n n
        deadline :=
          if q.interval ≠ 0 ∧ q.current + 1 < q.ceiling then some (q.interval * 1000) else none }
    exec (.escalationExpiry i.val) s = .next
      (State.arbitrate
        (State.post (s.setRecord i raised)
          (.record .escalated { s.about i q with priority := q.current + 1 } .timer)) .byRelease)) ∧
  (∀ (s : State) (slot : Nat), 30 ≤ slot → exec (.escalationExpiry slot) s = .fault .noSuchSlot) ∧
  (∀ (s : State) (i : SlotNo),
    (∀ q, s.record i = some q → q.deadline ≠ some 0 ∨ q.state ≠ .alerting ∨ q.ceiling ≤ q.current) →
    exec (.escalationExpiry i.val) s = .next s) ∧
  (∀ s : State, s.mute ≠ some 0 → exec .muteTimerExpiry s = .next s) ∧
  (∀ s : State, s.mute = some 0 →
     ∃ s1 : State,
       (∀ i, (s1.slot i).generation = (s.slot i).generation ∧
         s1.record i = (s.record i).map (fun r => { r with muted := false })) ∧
       { s1 with slots := s.slots, mute := some 0 } = s ∧ s1.mute = none ∧
       exec .muteTimerExpiry s = .next
         ((s1.arbitrate .byRelease).post
           (.resounded ((List.finRange 30).countP (fun i => (s.record i).any Record.muted)))))

/-! ### The Sounding Order and the Output Arbiter (chapter 2) -/

/-- R28 and R29: the Sounding Order holds exactly the occupied records that are ALERTING, not muted and sound due, each
once; of two of different priority the higher stands first, and of two of equal priority the one nearer the head of the
Arrival List. -/
def Obligations.SoundingOrderIsRanked : Prop :=
  ∀ s : State, s.ArrivalExact →
    s.order.Nodup ∧
    (∀ i, i ∈ s.order ↔
      ∃ r, s.record i = some r ∧ r.state = .alerting ∧ r.muted = false ∧ r.soundDue = true) ∧
    s.order.Pairwise (fun i j =>
      s.priority j < s.priority i ∨
        (s.priority i = s.priority j ∧ s.arrival.idxOf i < s.arrival.idxOf j))

/-- R35 to R40 and R42: the Arbiter's decision after a change of the records. In IDLE the head starts; an owner that has
left the order is cut, or released to a tail, by the cause of its leaving, and then the head starts or the tail is
judged; an owner below an urgent head is cut and the head starts; any other owner goes on; a tail is cut by an urgent
head and goes on otherwise. R61 and R62: a cut removes what is in the Play Context and leaves it IDLE with the drive OFF;
a release removes the owner and keeps the step, its time left and the drive; neither changes anything else. -/
def Obligations.ArbiterDecides : Prop :=
  (∀ (s : State) (leaving : Leaving),
     let urgentHead := ∃ i, s.order.head? = some i ∧ s.params.urgent ≤ s.priority i
     (s.play = .idle → s.arbitrate leaving = s.startHead) ∧
     (s.order = [] → s.startHead = s) ∧
     (∀ now, s.play = .tail now →
       (urgentHead → s.arbitrate leaving = s.cut.startHead) ∧ (¬ urgentHead → s.arbitrate leaving = s)) ∧
     (∀ owner now, s.play = .playing owner now →
       let above := ∃ i, s.order.head? = some i ∧ i ≠ owner.slot ∧ s.priority owner.slot < s.priority i
       (s.ownerStands owner = true →
         (above ∧ urgentHead → s.arbitrate leaving = s.cut.startHead) ∧
         (¬ (above ∧ urgentHead) → s.arbitrate leaving = s)) ∧
       (s.ownerStands owner = false →
         s.arbitrate .byCut = s.cut.startHead ∧
         (urgentHead → s.arbitrate .byRelease = s.release.cut.startHead) ∧
         (¬ urgentHead → s.arbitrate .byRelease = s.release)))) ∧
  (∀ s : State, s.cut.play = .idle ∧ s.cut.drive = none ∧
    { s.cut with play := s.play, drive := s.drive, driveMs := s.driveMs } = s) ∧
  (∀ (s : State) (owner : Handle) (now : Sounding), s.play = .playing owner now → s.DriveFollows →
    s.release = { s with play := .tail now })

/-- R44 and R45: a silence action, from a port holding A or from the panel, mutes every ALERTING record at or below the
silence level, and no other; cuts the owner or the tail and starts a remaining head; starts the mute timer afresh from
the mute period; and posts SILENCED with its source, the level and the count of flags that changed (that the SOUNDING of a
head that starts comes before SILENCED is the model's reading, log 12). -/
def Obligations.SilenceMutesAndCuts : Prop :=
  let acts := fun (s : State) (source : Source) (t : State) =>
    let level := match s.play with | .playing owner _ => s.priority owner.slot | _ => 7
    let selected := fun (r : Record) => decide (r.state = .alerting) && decide (r.current ≤ level)
    let count := (List.finRange 30).countP (fun i => (s.record i).any (fun r => selected r && !r.muted))
    ∃ s1 : State,
      (∀ i, (s1.slot i).generation = (s.slot i).generation ∧
        s1.record i = (s.record i).map (fun r => if selected r then { r with muted := true } else r)) ∧
      { s1 with slots := s.slots } = s ∧
      t = State.post
        { (if s.play = .idle then s1 else s1.cut.startHead) with
          mute := if s.params.mutePeriod = 0 then none else some (s.params.mutePeriod * 1000) }
        (.silenced source level count)
  (∀ (s : State) (p : Port) (r : Request) (rest : List Request),
    s.Taking .silence p r rest → (s.rights p).a = true →
    ∃ t, acts (s.removeRequest p) (.port p) t ∧
      exec .silence s = .next
        (t.answered p r
          (let level := match s.play with | .playing owner _ => s.priority owner.slot | _ => 7
           [byte level, byte ((List.finRange 30).countP (fun i => (s.record i).any (fun q =>
              decide (q.state = .alerting) && decide (q.current ≤ level) && !q.muted)))]))) ∧
  (∀ s : State, s.panel.silence.accepted = some .press → s.params.panelEnable = true →
    ∃ t, acts { s with panel := { s.panel with silence := { s.panel.silence with accepted := none } } } .panel t ∧
      exec .panelSilence s = .next t)

/-! ### The Tone Sequencer (chapter 3) -/

/-- R55, R18, R52 and R56: in IDLE the head of the order begins its tenure. On a READY pattern it starts at index 0, or at
the loop index once its intro is done, with the step's tone and level and a time left of units × 10 ms × pace; on a
DAMAGED pattern it is first switched to pattern 28 with intro done no, and starts at index 0 of that. SOUNDING is
posted, and nothing else changes. -/
def Obligations.TenureStarts : Prop :=
  ∀ (s : State) (i : SlotNo) (others : List SlotNo) (q : Record) (l : Layout) (leaving : Leaving),
    s.play = .idle → s.order = i :: others → s.record i = some q →
    let owner : Handle := { slot := i, generation := (s.slot i).generation }
    let sounding := Event.sound .sounding (s.about i q)
    (∀ st, (s.entry q.pattern).body = .ready l →
      (let index := if q.introDone then l.loopIndex else 0
       if isBuiltIn q.pattern then (builtInSteps q.pattern)[index]? = some st
       else ∃ start, l.start = some start ∧ (s.word (start + index)).good = true ∧ (s.word (start + index)).step = st) →
      s.arbitrate leaving =
        (s.setPlay (.playing owner
          { pattern := q.pattern, index := if q.introDone then l.loopIndex else 0
            timeLeft := st.units.toNat * 10 * l.pace, tone := st.tone, level := st.level })).post sounding) ∧
    ((s.entry q.pattern).body = .damaged l →
      s.arbitrate leaving =
        (State.setPlay
          { s with
            slots := s.slots.set i { s.slot i with record := some { q with pattern := 28, introDone := false } }
            directory := ((s.dropRef q.pattern).takeRef 28).directory }
          (.playing owner { pattern := 28, index := 0, timeLeft := 500, tone := 12, level := 3 })).post sounding)

/-- R53, R57, R64 and R60: a step end below the pattern's last index goes on to the next step, or, where the head is
another record of higher priority, posts PREEMPTED for the owner and starts the head; a step end in TAIL leaves the
context IDLE, and the head starts. R66: an owner whose pattern is DAMAGED is preempted alike, with no switch of
its own pattern. In IDLE, and while the time left is not 0, a STEP_END changes nothing (R54, R63; that a step end is a command
with this condition is the model's choice, log 5). -/
def Obligations.StepEndGoesOnPreemptsOrEndsTail : Prop :=
  (∀ (s : State) (owner : Handle) (now : Sounding) (q : Record) (l : Layout),
    s.play = .playing owner now → now.timeLeft = 0 → s.ownerStands owner = true → s.record owner.slot = some q →
    now.pattern = q.pattern → (s.entry q.pattern).body = .ready l ∨ (s.entry q.pattern).body = .damaged l →
    now.index + 1 < l.length →
    let above := ∃ i, s.order.head? = some i ∧ i ≠ owner.slot ∧ q.current < s.priority i
    (above → exec .stepEnd s = .next
      (((s.post (.sound .preempted (s.about owner.slot q))).setPlay .idle).startHead)) ∧
    (∀ st, (s.entry q.pattern).body = .ready l → ¬ above →
      (if isBuiltIn q.pattern then (builtInSteps q.pattern)[now.index + 1]? = some st
       else ∃ start, l.start = some start ∧ (s.word (start + (now.index + 1))).good = true ∧
         (s.word (start + (now.index + 1))).step = st) →
      exec .stepEnd s = .next
        (s.setPlay (.playing owner
          { pattern := q.pattern, index := now.index + 1, timeLeft := st.units.toNat * 10 * l.pace,
            tone := st.tone, level := st.level })))) ∧
  (∀ (s : State) (now : Sounding), s.play = .tail now → now.timeLeft = 0 →
    exec .stepEnd s = .next (s.setPlay .idle).startHead) ∧
  (∀ s : State,
    s.play = .idle ∨ (∃ owner now, s.play = .playing owner now ∧ now.timeLeft ≠ 0) ∨
      (∃ now, s.play = .tail now ∧ now.timeLeft ≠ 0) →
    exec .stepEnd s = .next s)

/-- R16, R18, R41, R58 and R59: a step end at the pattern's last index completes a cycle. Intro done becomes yes; a
COUNTED record's cycles left falls by one, and at 0 sound due becomes no and EXPIRED is posted; then, on the order as it
stands, the owner goes on at its loop index, another head starts, or the context becomes IDLE. R66: where the owner's
pattern is DAMAGED the report is the same, and a hand-over or an end in IDLE makes no switch of its pattern. -/
def Obligations.CycleEndReportsAndHandsOver : Prop :=
  ∀ (s : State) (owner : Handle) (now : Sounding) (q : Record) (l : Layout),
    s.play = .playing owner now → now.timeLeft = 0 → s.ownerStands owner = true → s.record owner.slot = some q →
    now.pattern = q.pattern → (s.entry q.pattern).body = .ready l ∨ (s.entry q.pattern).body = .damaged l →
    now.index + 1 = l.length →
    ∃ s1 : State,
      (q.mode = .continuous → s1 = s.setRecord owner.slot { q with introDone := true }) ∧
      (∀ n left, q.mode = .counted n left → 2 ≤ left →
        s1 = s.setRecord owner.slot { q with introDone := true, mode := .counted n (left - 1) }) ∧
      (∀ n left, q.mode = .counted n left → left ≤ 1 →
        s1 = (s.setRecord owner.slot
            { q with introDone := true, mode := .counted n 0, soundDue := false }).post
          (.record .expired (s.about owner.slot q) .timer)) ∧
      (s1.order = [] → exec .stepEnd s = .next (s1.setPlay .idle)) ∧
      (∀ i others, s1.order = i :: others → i ≠ owner.slot →
        exec .stepEnd s = .next (s1.setPlay .idle).startHead) ∧
      (∀ others st, (s.entry q.pattern).body = .ready l → s1.order = owner.slot :: others →
        (if isBuiltIn q.pattern then (builtInSteps q.pattern)[l.loopIndex]? = some st
         else ∃ start, l.start = some start ∧ (s.word (start + l.loopIndex)).good = true ∧
           (s.word (start + l.loopIndex)).step = st) →
        exec .stepEnd s = .next
          (s1.setPlay (.playing owner
            { pattern := q.pattern, index := l.loopIndex, timeLeft := st.units.toNat * 10 * l.pace,
              tone := st.tone, level := st.level })))

/-- R65, R66, R85 and R86: a step load that finds damage, at a plain step end, at the loop index after a cycle end, and at
the start of a tenure. Where the step has bad parity, the READY pattern becomes DAMAGED, PATTERN_STATE is posted with
INTERNAL as its source, STORE_FAULT is raised or re-alerted with the pattern's number as its tag where no entry was DAMAGED,
and then the owner is switched to pattern 28 and sounds its step 0; a tenure that starts so posts its SOUNDING then, one
that goes on posts none; and the Arbiter decides on the STORE_FAULT. (That the events of a first load stand in this order
is the model's reading, log 12.) Where the pattern of an owner is already DAMAGED at a step end or a cycle end, no step is
read and the owner is switched alike, with no event and no STORE_FAULT. -/
def Obligations.ParityFailureFallsBack : Prop :=
  let decided := fun (s t : State) => if s.damagedCount = 0 then t.arbitrate .byRelease else t
  let quiet := fun (s : State) => s.damagedCount = 0 → ∀ f ∈ s.record 29, f.state ≠ .alerting
  (∀ (s : State) (owner : Handle) (now : Sounding) (q : Record) (l : Layout),
    s.play = .playing owner now → now.timeLeft = 0 → s.ownerStands owner = true → s.record owner.slot = some q →
    now.pattern = q.pattern → now.index + 1 < l.length →
    (¬ ∃ i, s.order.head? = some i ∧ i ≠ owner.slot ∧ q.current < s.priority i) →
    (∀ start, isBuiltIn q.pattern = false → (s.entry q.pattern).body = .ready l → l.start = some start →
      (s.word (start + (now.index + 1))).good = false → owner.slot ≠ 29 → quiet s →
      exec .stepEnd s = .next (decided s ((s.foundDamaged q.pattern l).fellBack owner.slot q))) ∧
    ((s.entry q.pattern).body = .damaged l → exec .stepEnd s = .next (s.fellBack owner.slot q))) ∧
  (∀ (s : State) (owner : Handle) (now : Sounding) (q cycled : Record) (l : Layout) (others : List SlotNo),
    s.play = .playing owner now → now.timeLeft = 0 → s.ownerStands owner = true → s.record owner.slot = some q →
    now.pattern = q.pattern → now.index + 1 = l.length →
    (q.mode = .continuous ∧ cycled = { q with introDone := true }) ∨
      (∃ n left, q.mode = .counted n left ∧ 2 ≤ left ∧
        cycled = { q with introDone := true, mode := .counted n (left - 1) }) →
    let s1 := s.setRecord owner.slot cycled
    s1.order = owner.slot :: others →
    (∀ start, isBuiltIn q.pattern = false → (s.entry q.pattern).body = .ready l → l.start = some start →
      (s.word (start + l.loopIndex)).good = false → owner.slot ≠ 29 → quiet s →
      exec .stepEnd s = .next (decided s ((s1.foundDamaged q.pattern l).fellBack owner.slot cycled))) ∧
    ((s.entry q.pattern).body = .damaged l → exec .stepEnd s = .next (s1.fellBack owner.slot cycled))) ∧
  (∀ (s : State) (i : SlotNo) (others : List SlotNo) (q : Record) (l : Layout) (start : Nat) (leaving : Leaving),
    s.play = .idle → s.order = i :: others → s.record i = some q → isBuiltIn q.pattern = false →
    (s.entry q.pattern).body = .ready l → l.start = some start →
    (s.word (start + if q.introDone then l.loopIndex else 0)).good = false → i ≠ 29 → quiet s →
    s.arbitrate leaving =
      decided s (((s.foundDamaged q.pattern l).fellBack i q).post (.sound .sounding (s.about i q))))

/-! ### The Pattern Library (chapter 4) -/

/-- R74 and R76: PATTERN_DEFINE of an EMPTY entry takes the first n indices of the free extent with the lowest start that
is long enough and makes the entry LOADING with the fields given; an entry that is not EMPTY is WRONG_STATE, and where no
free extent is long enough the reply is NO_SPACE with the largest; a number above 31, n outside 1 to 128, a loop index not
below n or a pace outside 1 to 8 is BAD_VALUE. R73: the largest free extent is the greatest length in the Free Extent List,
or 0 where it is empty, and the free step total is the sum of the lengths. -/
def Obligations.PatternDefineAllocates : Prop :=
  (∀ s : State, (s.free = [] → s.freeLargest = 0) ∧ (∀ x ∈ s.free, x.length ≤ s.freeLargest) ∧
    (s.free ≠ [] → ∃ x ∈ s.free, x.length = s.freeLargest) ∧ s.freeTotal = (s.free.map Extent.length).sum) ∧
  (∀ (s : State) (p : Port) (r : Request) (rest : List Request) (number n loopIndex pace : Byte),
    s.Taking .patternDefine p r rest → (s.rights p).p = true → r.payload = [number, n, loopIndex, pace] →
    (31 < number.toNat ∨ n.toNat = 0 ∨ 128 < n.toNat ∨ n.toNat ≤ loopIndex.toNat ∨ pace.toNat = 0 ∨ 8 < pace.toNat) →
    exec .patternDefine s = .next ((s.removeRequest p).refusedWith p r .badValue [])) ∧
  ∀ (s : State) (p : Port) (r : Request) (rest : List Request) (number : PatNo) (n loopIndex pace : Nat),
    s.Taking .patternDefine p r rest → (s.rights p).p = true →
    r.payload = [byte number.val, byte n, byte loopIndex, byte pace] →
    1 ≤ n → n ≤ 128 → loopIndex < n → 1 ≤ pace → pace ≤ 8 →
    ((s.entry number).body ≠ .empty →
      exec .patternDefine s = .next ((s.removeRequest p).refusedWith p r .wrongState [])) ∧
    ((s.entry number).body = .empty → (∀ x ∈ s.free, x.length < n) →
      exec .patternDefine s = .next ((s.removeRequest p).refusedWith p r .noSpace (bytes2 s.freeLargest))) ∧
    (∀ before x after, (s.entry number).body = .empty → s.free = before ++ x :: after →
      (∀ y ∈ before, y.length < n) → n ≤ x.length →
      exec .patternDefine s = .next
        (State.answered
          { s.removeRequest p with
            free := before ++ (if x.length = n then after
              else { start := x.start + n, length := x.length - n } :: after)
            directory := s.directory.set number
              { body := .loading
                  { definer := some p, start := some x.start, length := n, loopIndex := loopIndex, pace := pace } 0
                refs := 0 } } p r (bytes2 x.start)))

/-- R77, R78 and R70: PATTERN_APPEND by the definer of a LOADING entry with room writes each step, with a parity bit that
makes the number of one bits even, at the offsets from the fill count on, and no other word, and answers the new fill
count; units of 0 are BAD_STEP, then too many steps OVERFILL. PATTERN_COMMIT makes a full LOADING entry READY and posts
PATTERN_STATE; a fill count below the length is INCOMPLETE. For both, an entry whose definer is another port is NOT_OWNER,
and any other entry that is not LOADING is WRONG_STATE; a number above 31, or a step count outside 1 to 8, is BAD_VALUE. -/
def Obligations.PatternsAreFilledAndCommitted : Prop :=
  (∀ (c : Instr) (k : Kind) (s : State) (p : Port) (r : Request) (rest : List Request) (number : PatNo),
    (c, k) ∈ [(Instr.patternAppend, Kind.patternAppend), (.patternCommit, .patternCommit)] →
    s.Taking k p r rest → (s.rights p).p = true →
    (k = .patternAppend → ∃ steps, appendFields r.payload = some (number, steps)) →
    (k = .patternCommit → r.payload = [byte number.val]) →
    let refused := fun (status : Status) => exec c s = .next ((s.removeRequest p).refusedWith p r status [])
    ((s.entry number).body = .empty → refused .wrongState) ∧
    (∀ l, (s.entry number).body = .ready l ∨ (s.entry number).body = .damaged l →
      (l.definer = some p ∨ l.definer = none → refused .wrongState) ∧
      (∀ o, l.definer = some o → o ≠ p → refused .notOwner))) ∧
  (∀ (s : State) (p : Port) (r : Request) (rest : List Request) (number count : Byte) (steps : List Byte),
    s.Taking .patternAppend p r rest → (s.rights p).p = true → r.payload = number :: count :: steps →
    (31 < number.toNat ∨ count.toNat = 0 ∨ 8 < count.toNat) →
    exec .patternAppend s = .next ((s.removeRequest p).refusedWith p r .badValue [])) ∧
  (∀ (s : State) (p : Port) (r : Request) (rest : List Request) (number : Byte),
    s.Taking .patternCommit p r rest → (s.rights p).p = true → r.payload = [number] → 31 < number.toNat →
    exec .patternCommit s = .next ((s.removeRequest p).refusedWith p r .badValue [])) ∧
  (∀ (s : State) (p : Port) (r : Request) (rest : List Request) (number : PatNo) (steps : List Step) (l : Layout)
      (fill start : Nat),
    s.Taking .patternAppend p r rest → (s.rights p).p = true → appendFields r.payload = some (number, steps) →
    (s.entry number).body = .loading l fill → l.start = some start → start + l.length ≤ 1024 →
    (l.definer = some p →
      ((∃ st ∈ steps, st.units = 0) →
        exec .patternAppend s = .next ((s.removeRequest p).refusedWith p r .badStep [])) ∧
      ((∀ st ∈ steps, st.units ≠ 0) → l.length < fill + steps.length →
        exec .patternAppend s = .next ((s.removeRequest p).refusedWith p r .overfill [])) ∧
      ((∀ st ∈ steps, st.units ≠ 0) → fill + steps.length ≤ l.length →
        ∃ store, exec .patternAppend s = .next
            (State.answered
              { s.removeRequest p with
                store := store
                directory := s.directory.set number
                  { s.entry number with body := .loading l (fill + steps.length) } }
              p r [byte (fill + steps.length)]) ∧
          (∀ k st, steps[k]? = some st →
            (Store.read store (start + fill + k)).step = st ∧
              (Store.read store (start + fill + k)).ones % 2 = 0) ∧
          (∀ a, (a < start + fill ∨ start + fill + steps.length ≤ a) → Store.read store a = Store.read s.store a))) ∧
    (∀ o, l.definer = some o → o ≠ p →
      exec .patternAppend s = .next ((s.removeRequest p).refusedWith p r .notOwner []))) ∧
  (∀ (s : State) (p : Port) (r : Request) (rest : List Request) (number : PatNo) (l : Layout) (fill : Nat),
    s.Taking .patternCommit p r rest → (s.rights p).p = true → r.payload = [byte number.val] →
    (s.entry number).body = .loading l fill →
    (l.definer = some p → fill = l.length →
      exec .patternCommit s = .next
        ((((s.removeRequest p).setEntry number { s.entry number with body := .ready l }).post
          (.patternState number (.port p))).answered p r [])) ∧
    (l.definer = some p → fill < l.length →
      exec .patternCommit s = .next ((s.removeRequest p).refusedWith p r .incomplete [byte fill])) ∧
    (∀ o, l.definer = some o → o ≠ p →
      exec .patternCommit s = .next ((s.removeRequest p).refusedWith p r .notOwner [])))

/-- R79 and R80: who may delete an entry, and what a deletion does: the extent is freed and merged, the entry becomes
EMPTY with reference count 0, PATTERN_STATE is posted, STORE_FAULT is returned where the last DAMAGED entry went, and the
reply carries the free step total and the largest free extent; a number above 31 is BAD_VALUE. -/
def Obligations.PatternDeleteFollowsTable : Prop :=
  (∀ (s : State) (p : Port) (r : Request) (rest : List Request) (number : Byte),
    s.Taking .patternDelete p r rest → (s.rights p).p = true → r.payload = [number] → 31 < number.toNat →
    exec .patternDelete s = .next ((s.removeRequest p).refusedWith p r .badValue [])) ∧
  ∀ (s : State) (p : Port) (r : Request) (rest : List Request) (number : PatNo),
    s.Taking .patternDelete p r rest → (s.rights p).p = true → r.payload = [byte number.val] → s.BuiltInsStand →
    let e := s.entry number
    let dropped := fun (l : Layout) (start : Nat) =>
      State.post
        { s.removeRequest p with
          free := insertExtent { start := start, length := l.length } s.free
          directory := s.directory.set number { body := .empty, refs := 0 } }
        (.patternState number (.port p))
    let done := fun (t : State) => exec .patternDelete s = .next
      (t.answered p r (bytes2 t.freeTotal ++ bytes2 t.freeLargest))
    let refused := fun (status : Status) (payload : List Byte) =>
      exec .patternDelete s = .next ((s.removeRequest p).refusedWith p r status payload)
    (e.body = .empty ∨ isBuiltIn number = true → refused .wrongState []) ∧
    (isBuiltIn number = false →
      (∀ l fill, e.body = .loading l fill → l.definer ≠ some p → refused .notOwner []) ∧
      (∀ l fill start, e.body = .loading l fill → l.definer = some p → l.start = some start →
        done (dropped l start)) ∧
      (∀ l o, e.body = .ready l → l.definer = some o → o ≠ p → refused .notOwner []) ∧
      (∀ l, (e.body = .ready l ∧ (l.definer = some p ∨ l.definer = none)) ∨ e.body = .damaged l → 0 < e.refs →
        refused .inUse [byte e.refs]) ∧
      (∀ l start, e.body = .ready l → (l.definer = some p ∨ l.definer = none) → e.refs = 0 → l.start = some start →
        done (dropped l start)) ∧
      (∀ l start, e.body = .damaged l → e.refs = 0 → l.start = some start →
        ((∃ m, m ≠ number ∧ isBuiltIn m = false ∧ (s.entry m).body.isDamaged = true) → done (dropped l start)) ∧
        ((∀ m, m ≠ number → isBuiltIn m = false → (s.entry m).body.isDamaged = false) →
          let returned := (dropped l start).internalReturn 29
          done (if returned.2 then returned.1.arbitrate .byRelease else returned.1))))

/-- R75: a freed extent that overlaps no free extent of a sound list enters the list and merges with its neighbours: the
list stays in ascending order, with no two extents adjacent, and an index is free after exactly when it was free before
or lies in the freed extent. -/
def Obligations.FreedExtentMerges : Prop :=
  ∀ (e : Extent) (free : List Extent), FreeListSound free → 1 ≤ e.length →
    (∀ x ∈ free, ∀ k, x.covers k = true → e.covers k = false) →
    FreeListSound (insertExtent e free) ∧
    (∀ k, (insertExtent e free).any (fun x => x.covers k) = (e.covers k || free.any (fun x => x.covers k))) ∧
    ((insertExtent e free).map Extent.length).sum = e.length + (free.map Extent.length).sum

/-- R82 and R85: PATTERN_READ of a READY or DAMAGED entry, within its length, answers each step as stored, with whether
its parity is good; a READY entry with a bad one among those read is first marked DAMAGED, with PATTERN_STATE from the
port, and STORE_FAULT is raised where no entry was DAMAGED; an EMPTY or LOADING entry is WRONG_STATE, and a read past
the last step, a number above 31, an offset above 127 or a count outside 1 to 8 is BAD_VALUE. R70: a fault of the Step Store
makes the parity of one word bad and changes no other word and nothing else (that the word's tone, level and units stay is
the model's reading, log 3); an index above 1023 names no word, and the command faults (the model's choice, log 18). -/
def Obligations.ParityIsLostAndFound : Prop :=
  (∀ (s : State) (p : Port) (r : Request) (rest : List Request) (number offset count : Byte),
     s.Taking .patternRead p r rest → r.payload = [number, offset, count] →
     (31 < number.toNat ∨ 127 < offset.toNat ∨ count.toNat = 0 ∨ 8 < count.toNat) →
     exec .patternRead s = .next ((s.removeRequest p).refusedWith p r .badValue [])) ∧
  (∀ (s : State) (p : Port) (r : Request) (rest : List Request) (number : PatNo) (offset count : Nat),
     s.Taking .patternRead p r rest → r.payload = [byte number.val, byte offset, byte count] →
     offset ≤ 127 → 1 ≤ count → count ≤ 8 →
     let answer := fun (t : State) (payload : List Byte) => exec .patternRead s = .next (t.answered p r payload)
     let asStored := fun (start : Nat) => byte count ::
       (List.range count).flatMap (fun k => stepAsRead (s.word (start + offset + k)).step (s.word (start + offset + k)).good)
     ((s.entry number).body = .empty ∨ (∃ l fill, (s.entry number).body = .loading l fill) →
       exec .patternRead s = .next ((s.removeRequest p).refusedWith p r .wrongState [])) ∧
     (∀ l, (s.entry number).body = .ready l ∨ (s.entry number).body = .damaged l → l.length < offset + count →
       exec .patternRead s = .next ((s.removeRequest p).refusedWith p r .badValue [])) ∧
     (∀ l, isBuiltIn number = true → (s.entry number).body = .ready l → offset + count ≤ l.length →
       l.length = (builtInSteps number).length →
       answer (s.removeRequest p)
         (byte count :: (((builtInSteps number).drop offset).take count).flatMap (fun st => stepAsRead st true))) ∧
     (∀ l start, isBuiltIn number = false → l.start = some start → offset + count ≤ l.length →
       let bad := ∃ k, k < count ∧ (s.word (start + offset + k)).ones % 2 = 1
       ((s.entry number).body = .damaged l ∨ ((s.entry number).body = .ready l ∧ ¬ bad) →
         answer (s.removeRequest p) (asStored start)) ∧
       ((s.entry number).body = .ready l ∧ bad →
         let marked :=
           ((s.removeRequest p).setEntry number { s.entry number with body := .damaged l }).post
             (.patternState number (.port p))
         (0 < s.damagedCount → answer marked (asStored start)) ∧
         (s.damagedCount = 0 →
           let raised := marked.internalRaise 29
             { tag := BitVec.ofNat 16 number.val, pattern := 31, base := s.params.storeFaultPrio,
               ceiling := s.params.storeFaultPrio, lamps := 0b1000#4, latching := true, mode := .counted 3 3,
               interval := 0 }
           answer (if raised.2 then raised.1.arbitrate .byRelease else raised.1) (asStored start))))) ∧
  (∀ (s : State) (index : Nat), index < 1024 →
    ∃ store, exec (.stepWordParityLoss index) s = .next { s with store := store } ∧
      (Store.read store index).ones % 2 = 1 ∧ (Store.read store index).step = (s.word index).step ∧
      (∀ a, a ≠ index → Store.read store a = s.word a)) ∧
  (∀ (s : State) (index : Nat), 1024 ≤ index → exec (.stepWordParityLoss index) s = .fault .noSuchStepWord)

/-! ### The Sounder Driver and the Line Monitor (chapter 6) -/

/-- R106 to R109, Table 6.2: at the expiry of the sample timer one sample is classed, by the sense code against sense low
and sense high while the bridge is driven and by what the idle check finds while it is not, and the timer starts again
from 100 ms; the counts move, a bad sample in NORMAL before the fourth declares nothing, an OK sample in FAULT before the
sixteenth clears nothing, and a SHORT sample makes the kind SHORT, from which it does not go back. R110 and R111: the
fourth consecutive bad sample declares FAULT with the kind of that sample and raises SOUNDER_FAULT, tag 1 for OPEN and 2
for SHORT, at the priority of its parameter; the sixteenth consecutive OK sample returns the monitor to NORMAL and returns
SOUNDER_FAULT. The drive follows first, and the Arbiter decides on the record that changed. Where the
sample timer is stopped or not at 0, a LINE_SAMPLE changes nothing (R106; that the expiry is a command with this condition is
the model's choice, log 5). -/
def Obligations.LineSamplesDeclareAndClearFaults : Prop :=
  (∀ (s : State) (sense : Byte) (loop : Loop), s.lineTimer ≠ some 0 → exec (.lineSample sense loop) s = .next s) ∧
  (∀ (s : State) (sense : Byte) (loop : Loop), s.lineTimer = some 0 →
     let isOpen :=
       (s.drive.isSome = true ∧ sense.toNat < s.params.senseLow) ∨ (s.drive = none ∧ loop = .noContinuity)
     let isShort :=
       (s.drive.isSome = true ∧ s.params.senseLow ≤ sense.toNat ∧ s.params.senseHigh < sense.toNat) ∨
         (s.drive = none ∧ loop = .lowPath)
     let becomes := fun (line : Line) =>
       exec (.lineSample sense loop) s = .next (State.setLine { s with lineTimer := some 100 } line)
     (∀ bad, s.line = .normal bad → ¬ isOpen → ¬ isShort → becomes (.normal 0)) ∧
     (∀ bad, s.line = .normal bad → bad < 3 → isOpen ∨ isShort → becomes (.normal (bad + 1))) ∧
     (∀ kind ok, s.line = .fault kind ok → ok < 15 → ¬ isOpen → ¬ isShort → becomes (.fault kind (ok + 1))) ∧
     (∀ kind ok, s.line = .fault kind ok → isOpen → becomes (.fault kind 0)) ∧
     (∀ kind ok, s.line = .fault kind ok → isShort → becomes (.fault .short 0))) ∧
  (∀ (s : State) (sense : Byte) (loop : Loop) (kind : FaultKind), s.lineTimer = some 0 → s.line = .normal 3 →
    (if s.drive.isSome = true then
       (if sense.toNat < s.params.senseLow then kind = .openLine
        else s.params.senseHigh < sense.toNat ∧ kind = .short)
     else (loop = .noContinuity ∧ kind = .openLine) ∨ (loop = .lowPath ∧ kind = .short)) →
    let raised := (State.setLine { s with lineTimer := some 100 } (.fault kind 0)).internalRaise 28
      { tag := match kind with | .openLine => 1#16 | .short => 2#16
        pattern := 30, base := s.params.sounderFaultPrio, ceiling := s.params.sounderFaultPrio, lamps := 0b1000#4,
        latching := true, mode := .counted 3 3, interval := 0 }
    exec (.lineSample sense loop) s = .next (if raised.2 then raised.1.arbitrate .byRelease else raised.1)) ∧
  (∀ (s : State) (sense : Byte) (loop : Loop) (kind : FaultKind), s.lineTimer = some 0 → s.line = .fault kind 15 →
    (if s.drive.isSome = true then s.params.senseLow ≤ sense.toNat ∧ sense.toNat ≤ s.params.senseHigh
     else loop = .continuity) →
    let returned := (State.setLine { s with lineTimer := some 100 } (.normal 0)).internalReturn 28
    exec (.lineSample sense loop) s = .next (if returned.2 then returned.1.arbitrate .byRelease else returned.1))

/-! ### The host ports: transactions (chapters 7 and 11) -/

/-- R117, R119, R125 and R166: the fall of chip select fixes the status byte, from the session state, the last-outcome and
whether a reply and an event wait, and the outbound frame: the head reply first, else the head event, else the empty frame
of one byte 0x00. Nothing leaves a queue. R118: a rising edge of SCK in a transaction takes one bit of SDI; at the eighth
edge of a byte the bits, the first the most significant, make it whole; outside a transaction SCK is not read. SDO carries
the status byte, then the bytes of the frame, then 0x00, each most significant bit first, and is at high impedance outside
a transaction (it is given as the bit the next rising edge carries, log 15). A chip select that falls while a reset lasts
changes the level of the pin and begins no transaction, and a fall of one that is low already changes nothing (the model's
reading of R134, log 10). -/
def Obligations.TransactionsBeginAndClock : Prop :=
  (∀ (s : State) (p : Port),
    ((s.port p).selectLow = true → exec (.chipSelectFall p) s = .next s) ∧
    ((s.port p).selectLow = false → s.inReset = true →
      exec (.chipSelectFall p) s = .next (s.setPort p { s.port p with selectLow := true }))) ∧
  (∀ (s : State) (p : Port), (s.port p).selectLow = false → s.inReset = false →
     ∃ t x, exec (.chipSelectFall p) s = .next t ∧
       t = s.setPort p { s.port p with selectLow := true, transaction := some x } ∧
       x.received = [] ∧ x.bits = [] ∧
       (x.status.extractLsb' 6 2).toNat =
         (match (s.port p).session with | .closed => 0 | .opened => 1 | .lost => 2) ∧
       (x.status.extractLsb' 4 2).toNat =
         (match (s.port p).lastOutcome with | .none => 0 | .accepted => 1 | .full => 2 | .frameError => 3) ∧
       (x.status.getLsbD 3 = true ↔ (s.port p).replies ≠ []) ∧ (x.status.getLsbD 2 = true ↔ (s.port p).events ≠ []) ∧
       x.status.extractLsb' 0 2 = 0#2 ∧
       (∀ reply others, (s.port p).replies = reply :: others → x.frame = reply.frame ∧ x.source = .reply) ∧
       (∀ event others, (s.port p).replies = [] → (s.port p).events = event :: others →
         x.frame = event.frame ∧
           x.source = match event with | .overrun count => .overrun count | _ => .event) ∧
       ((s.port p).replies = [] → (s.port p).events = [] → x.frame = [0x00#8] ∧ x.source = .nothing)) ∧
  (∀ (s : State) (p : Port) (x : Transaction) (b : Byte), (s.port p).transaction = some x → x.bits = [] →
    [7, 6, 5, 4, 3, 2, 1, 0].foldl
        (fun answered k => match answered with
          | Host.Outcome.next t => exec (.sckRisingEdge p (if b.getLsbD k then .high else .low)) t
          | stopped => stopped) (Host.Outcome.next s) =
      .next (s.setPort p
        { s.port p with transaction := some { x with received := x.received ++ [b], bits := [] } })) ∧
  (∀ (s : State) (p : Port) (x : Transaction) (sdi : Level), (s.port p).transaction = some x → x.bits.length < 7 →
    exec (.sckRisingEdge p sdi) s = .next (s.setPort p
      { s.port p with transaction := some { x with bits := x.bits ++ [decide (sdi = .high)] } })) ∧
  (∀ (s : State) (p : Port) (sdi : Level), (s.port p).transaction = none →
    exec (.sckRisingEdge p sdi) s = .next s ∧ s.sdo p = none) ∧
  (∀ (s : State) (p : Port) (x : Transaction) (sent : Byte), (s.port p).transaction = some x →
    (x.received = [] ∧ sent = x.status) ∨
      (∃ k, x.received.length = k + 1 ∧ (x.frame[k]? = some sent ∨ (x.frame.length ≤ k ∧ sent = 0x00#8))) →
    s.sdo p = some (sent.getLsbD (7 - x.bits.length)))

/-- R121, R122, R164 and R165: a request frame of at most 32 payload bytes closed by its CRC-8 is well formed, with any
bytes after it ignored, and gives its kind, sequence and payload, or a NULL frame where kind and length are 0; a frame
that is short, with a length above 32, with another CRC byte, or with kind 0 and a length that is not 0 is a frame error;
and no change of a single byte that the CRC covers keeps the CRC. The CRC-8 starts from 0xFF, and each byte is combined by
exclusive-or, followed by eight shifts towards bit 7, each combined with 0x07 where bit 7 was 1. -/
def Obligations.FramesAreJudged : Prop :=
  (∀ (kind seq : Byte) (payload after : List Byte), payload.length ≤ 32 →
    let covered := [kind, seq, byte payload.length] ++ payload
    (kind ≠ 0#8 → judge (covered ++ [crc8 covered] ++ after) = .request { kind := kind, seq := seq, payload := payload }) ∧
    (kind = 0#8 → payload = [] → judge (covered ++ [crc8 covered] ++ after) = .nullFrame) ∧
    (kind = 0#8 → payload ≠ [] → judge (covered ++ [crc8 covered] ++ after) = .frameError) ∧
    (∀ wrong, wrong ≠ crc8 covered → judge (covered ++ [wrong] ++ after) = .frameError)) ∧
  (∀ received : List Byte, received.length < 3 → judge received = .frameError) ∧
  (∀ (kind seq len : Byte) (rest : List Byte), rest.length < len.toNat + 1 ∨ 32 < len.toNat →
    judge (kind :: seq :: len :: rest) = .frameError) ∧
  (∀ (before after : List Byte) (b b' : Byte), b ≠ b' → crc8 (before ++ b :: after) ≠ crc8 (before ++ b' :: after)) ∧
  crc8 [] = 0xFF#8 ∧
  (∀ (before : List Byte) (b : Byte), crc8 (before ++ [b]) =
    (fun r : Byte => if r.getLsbD 7 then (r <<< 1) ^^^ 0x07#8 else r <<< 1)^[8] (crc8 before ^^^ b)) ∧
  crc8 [0x00#8, 0x00#8, 0x00#8] = 0x2B#8

/-- R118, R120, R121, R122, R123, R131 and R152: at the rise of chip select a fully clocked reply or event leaves its
queue, an OVERRUN entry stays with the count added since the fall, and a partly clocked frame is kept; then the received
frame is judged: a request is admitted where inbound plus replies is below 4 and is otherwise lost as FULL, a frame error
leaves queue and timer as they were, and a well-formed frame restarts the keepalive timer of an OPEN port; a void
transaction does none of this. A rise with no transaction in progress changes the level of the pin alone (the model's
reading, log 10). -/
def Obligations.ChipSelectRiseEndsTheTransaction : Prop :=
  (∀ (s : State) (p : Port), (s.port p).transaction = none →
    exec (.chipSelectRise p) s = .next (s.setPort p { s.port p with selectLow := false })) ∧
  ∀ (s : State) (p : Port) (x : Transaction), (s.port p).transaction = some x →
    let ended : PortState := { s.port p with selectLow := false, transaction := none }
    let interval := if s.params.keepalive = 0 then none else some (s.params.keepalive * 100)
    let rises := fun (y : PortState) => exec (.chipSelectRise p) s = .next (s.setPort p y)
    let kept := x.received.length < x.frame.length + 1
    (x.received = [] → rises ended) ∧
    (x.received ≠ [] → ∃ y : PortState,
      (kept → y = ended) ∧
      (¬ kept → (x.source = .reply → y = { ended with replies := ended.replies.tail }) ∧
        (x.source = .event → y = { ended with events := ended.events.tail }) ∧
        (∀ sent rest, x.source = .overrun sent → ended.events = .overrun sent :: rest →
          y = { ended with events := rest }) ∧
        (∀ sent count rest, x.source = .overrun sent → ended.events = .overrun count :: rest → count ≠ sent →
          y = { ended with events := .overrun (count - sent) :: rest }) ∧
        (x.source = .nothing ∨ x.source = .emptied → y = ended)) ∧
      (judge x.received = .frameError → rises { y with lastOutcome := .frameError }) ∧
      (judge x.received = .nullFrame →
        rises { y with
          lastOutcome := .none
          keepalive := if y.session = .opened then interval else y.keepalive }) ∧
      (∀ r, judge x.received = .request r → y.inbound.length + y.replies.length < 4 →
        rises { y with
          inbound := y.inbound ++ [r]
          lastOutcome := .accepted
          keepalive := if y.session = .opened then interval else y.keepalive }) ∧
      (∀ r, judge x.received = .request r → 4 ≤ y.inbound.length + y.replies.length →
        rises { y with
          lastOutcome := .full
          keepalive := if y.session = .opened then interval else y.keepalive }))

/-- R164, R167, R168 and R169: what Tables 11.2, 11.4, 11.6, 11.7 and 11.8 give: the bytes of reply and event frames, with the
code of each status and event kind and the fields of each event's payload in their order; the kind a kind byte names and
the payload length each kind has; a step in a request and a step as read, and the steps an append carries; and the codes
of parties, record states and sessions. -/
def Obligations.FormatsFollowTheTables : Prop :=
  let byteOf := BitVec.ofNat 8
  (∀ n : Nat, byte n = byteOf n ∧ bytes2 n = [byteOf (n / 256), byteOf n] ∧
    bytes3 n = [byteOf (n / 65536), byteOf (n / 256), byteOf n]) ∧
  (∀ r : Reply, ∃ code,
    (r.status, code) ∈
      [(Status.ok, 0x00#8), (.unknownKind, 0x01#8), (.badLength, 0x02#8), (.notOpen, 0x03#8), (.noRight, 0x04#8),
       (.badValue, 0x05#8), (.staleHandle, 0x06#8), (.notOwner, 0x07#8), (.tableFull, 0x08#8), (.quota, 0x09#8),
       (.patternNotReady, 0x0A#8), (.patternDamaged, 0x0B#8), (.noSpace, 0x0C#8), (.inUse, 0x0D#8),
       (.wrongState, 0x0E#8), (.incomplete, 0x0F#8), (.overfill, 0x10#8), (.badStep, 0x11#8)] ∧
    let covered := [0x01#8, r.seq, code, byteOf r.payload.length] ++ r.payload
    r.frame = covered ++ [crc8 covered]) ∧
  (∀ e : Event,
    let is := fun (kind : Byte) (payload : List Byte) =>
      let covered := [0x02#8, kind, byteOf payload.length] ++ payload
      e.frame = covered ++ [crc8 covered]
    let port := fun (p : Port) => byteOf p.val
    let from_ := fun (source : Source) =>
      match source with | .port p => port p | .internal => 4#8 | .panel => 5#8 | .timer => 6#8
    let about := fun (x : RecordRef) =>
      [byteOf x.handle.slot.val, x.handle.generation, match x.origin with | .host p => port p | .internal => 4#8,
       byteOf (x.tag.toNat / 256), byteOf x.tag.toNat, byteOf x.priority]
    match e with
    | .record kind x source =>
      is (match kind with
        | .raised => 0x01#8 | .realerted => 0x02#8 | .acked => 0x03#8 | .returned => 0x04#8 | .freed => 0x05#8
        | .expired => 0x06#8 | .escalated => 0x07#8) (about x ++ [from_ source])
    | .sound .sounding x => is 0x08#8 (about x)
    | .sound .preempted x => is 0x09#8 (about x)
    | .silenced source level count => is 0x0A#8 [byteOf level, from_ source, byteOf count]
    | .resounded count => is 0x0B#8 [6#8, byteOf count]
    | .portState p session source =>
      is 0x0C#8 [port p, 0#8, match session with | .closed => 0#8 | .opened => 1#8 | .lost => 2#8, from_ source]
    | .patternState number source => is 0x0D#8 [0#8, byteOf number.val, from_ source]
    | .overrun count => is 0x0E#8 [byteOf count]) ∧
  (∀ (b : Byte) (k : Kind), kindOf b = some k ↔
    (k, b) ∈
      [(Kind.hello, 0x01#8), (.bye, 0x02#8), (.subscribe, 0x03#8), (.raise, 0x10#8), (.clear, 0x11#8), (.ack, 0x12#8),
       (.ackAll, 0x13#8), (.silence, 0x14#8), (.alertInfo, 0x15#8), (.alertList, 0x16#8), (.patternDefine, 0x20#8),
       (.patternAppend, 0x21#8), (.patternCommit, 0x22#8), (.patternDelete, 0x23#8), (.patternInfo, 0x24#8),
       (.patternRead, 0x25#8), (.status, 0x30#8), (.configGet, 0x31#8), (.configSet, 0x32#8)]) ∧
  (∀ (k : Kind) (length : Nat) (payload : List Byte),
    (k, length) ∈
      [(Kind.hello, 0), (.bye, 0), (.subscribe, 2), (.raise, 9), (.clear, 2), (.ack, 2), (.ackAll, 0), (.silence, 0),
       (.alertInfo, 2), (.alertList, 1), (.patternDefine, 4), (.patternCommit, 1), (.patternDelete, 1),
       (.patternInfo, 1), (.patternRead, 3), (.status, 0), (.configGet, 1), (.configSet, 3)] →
    (lengthOk k payload = true ↔ payload.length = length)) ∧
  (∀ payload : List Byte, lengthOk .patternAppend payload = true ↔
    ∃ number count steps, payload = number :: count :: steps ∧ steps.length = 2 * count.toNat) ∧
  (∀ (number count : Byte) (pairs : List (Byte × Byte)), number.toNat ≤ 31 → count.toNat = pairs.length →
    1 ≤ pairs.length → pairs.length ≤ 8 →
    ∃ n steps, appendFields (number :: count :: pairs.flatMap (fun x => [x.1, x.2])) = some (n, steps) ∧
      n.val = number.toNat ∧ steps.length = pairs.length ∧
      ∀ (k : Nat) (x : Byte × Byte) (st : Step), pairs[k]? = some x → steps[k]? = some st →
        st.tone = x.1.extractLsb' 3 5 ∧ st.level = x.1.extractLsb' 1 2 ∧ st.units = x.2.extractLsb' 0 6) ∧
  (∀ (st : Step) (good : Bool), ∃ first second : Byte, stepAsRead st good = [first, second] ∧
    first.extractLsb' 3 5 = st.tone ∧ first.extractLsb' 1 2 = st.level ∧ first.getLsbD 0 = false ∧
    second.extractLsb' 0 6 = st.units ∧ second.getLsbD 6 = false ∧ second.getLsbD 7 = good) ∧
  (∀ p : Port, (Origin.host p).code = byteOf p.val) ∧ Origin.internal.code = 4#8 ∧
  RecordState.alerting.code = 1#8 ∧ RecordState.returned.code = 3#8 ∧
  (∀ who, (RecordState.acknowledged who).code = 2#8 ∧
    (RecordState.acknowledged who).ackedBy = match who with | .port p => byteOf p.val | .panel => 5#8) ∧
  RecordState.alerting.ackedBy = 0xFF#8 ∧ RecordState.returned.ackedBy = 0xFF#8 ∧
  Session.closed.code = 0#8 ∧ Session.opened.code = 1#8 ∧ Session.lost.code = 2#8

/-! ### The host ports: sessions and events (chapters 7 and 9) -/

/-- R127 and R131: a HELLO from a CLOSED port opens its session with the event queue emptied, the default subscription
and the keepalive timer started, posts PORT_STATE OPEN to the other OPEN ports, and answers CLOSED, no RESTARTED flag and
the port's rights; the inbound and reply queues are kept. R128 and R26: a HELLO from a LOST port re-opens its session as
R127 opens one, adopts every record of the port, changes no pattern, returns the port's PORT_LOST record, in slot 24 + p,
with the Arbiter's decision on it, posts PORT_STATE OPEN, and answers LOST (that the events of the return and of the
decision come before PORT_STATE is the model's reading, log 12). -/
def Obligations.HelloOpensSession : Prop :=
  (∀ (s : State) (p : Port) (r : Request) (rest : List Request),
     s.Turn p r rest → kindOf r.kind = some .hello → r.payload = [] → (s.port p).session = .closed →
     ∃ y : PortState, PortState.Opens { s.port p with inbound := rest } s.params y ∧
       exec .hello s = .next
         ((State.post { s with ports := s.ports.set p y, pointer := p } (.portState p .opened (.port p))).answered p r
           [0#8, 0#8, (s.rights p).code])) ∧
  (∀ (s : State) (p : Port) (r : Request) (rest : List Request) (lost : SlotNo),
     s.Turn p r rest → kindOf r.kind = some .hello → r.payload = [] → (s.port p).session = .lost →
     lost.val = 24 + p.val →
     ∃ (y : PortState) (s1 : State), PortState.Opens { s.port p with inbound := rest } s.params y ∧
       (∀ i, (s1.slot i).generation = (s.slot i).generation ∧
         s1.record i = (s.record i).map (fun q =>
           if q.origin = .host p then { q with raiser := .host p false } else q)) ∧
       { s1 with slots := s.slots } = { s with ports := s.ports.set p y, pointer := p } ∧
       let returned := s1.internalReturn lost
       exec .hello s = .next
         (((if returned.2 then returned.1.arbitrate .byRelease else returned.1).post
           (.portState p .opened (.port p))).answered p r [2#8, 0#8, (s.rights p).code]))

/-- R24, R88, R129 and R130: a BYE from an OPEN port closes its session, with the event queue emptied, the keepalive timer
stopped and the inbound and reply queues and the subscription kept; deals with its records in Arrival List order with one
decision of the Arbiter, then with its patterns; posts PORT_STATE CLOSED and answers OK. A HELLO from an OPEN port does the
same without the PORT_STATE and the reply, opens the session afresh, posts one PORT_STATE OPEN, and answers OPEN with the
RESTARTED flag. (That the decision and its SOUNDING come before the PATTERN_STATE of the discarded entries is the model's
reading, log 12; that the decision is taken even where no record changed is the model's choice, log 24.) -/
def Obligations.ByeClosesAndHelloRestarts : Prop :=
  ∀ (s : State) (p : Port) (r : Request) (rest : List Request), s.ArrivalExact →
    s.Turn p r rest → r.payload = [] → (s.port p).session = .opened →
    ∃ (y z : PortState) (s1 s2 : State), PortState.Closes { s.port p with inbound := rest } y ∧
      State.RecordsClosed { s with ports := s.ports.set p y, pointer := p } p s1 ∧
      (s1.arbitrate .byRelease).EntriesLeft p true s2 ∧ (s2.port p).Opens s.params z ∧
      (kindOf r.kind = some .bye →
        exec .bye s = .next ((s2.post (.portState p .closed (.port p))).answered p r [])) ∧
      (kindOf r.kind = some .hello →
        exec .hello s = .next
          ((State.post { s2 with ports := s2.ports.set p z } (.portState p .opened (.port p))).answered p r
            [1#8, 1#8, (s.rights p).code]))

/-- R25, R89 and R132: the expiry of an OPEN port's keepalive timer makes it LOST with its timer stopped and all three
queues emptied, so that the rise of a transaction in progress removes nothing; marks its records orphaned, raises its
PORT_LOST record, in slot 24 + p, with the port number as its tag, with the Arbiter's decision, discards its LOADING
patterns, and posts PORT_STATE LOST with TIMER as its source. Where the port is not OPEN, or its timer is stopped or not
at 0, a KEEPALIVE_EXPIRY changes nothing (R133; that the expiry is a command with this condition is the model's choice,
log 5). -/
def Obligations.KeepaliveExpiryLosesPort : Prop :=
  (∀ (s : State) (p : Port), (s.port p).session ≠ .opened ∨ (s.port p).keepalive ≠ some 0 →
    exec (.keepaliveExpiry p) s = .next s) ∧
  ∀ (s : State) (p : Port) (lost : SlotNo), (s.port p).session = .opened → (s.port p).keepalive = some 0 →
    lost.val = 24 + p.val →
    ∃ s1 s2 : State,
      (∀ i, (s1.slot i).generation = (s.slot i).generation ∧
        s1.record i = (s.record i).map (fun q =>
          if q.origin = .host p then { q with raiser := .host p true } else q)) ∧
      (∀ q, q ≠ p → s1.port q = s.port q) ∧
      (s1.port p).session = .lost ∧ (s1.port p).keepalive = none ∧ (s1.port p).inbound = [] ∧
      (s1.port p).replies = [] ∧ (s1.port p).events = [] ∧ (s1.port p).mask = (s.port p).mask ∧
      (s1.port p).attention = (s.port p).attention ∧ (s1.port p).lastOutcome = (s.port p).lastOutcome ∧
      (s1.port p).selectLow = (s.port p).selectLow ∧
      (s1.port p).transaction = (s.port p).transaction.map (fun x =>
        { x with source := match x.source with | .nothing => .nothing | _ => .emptied }) ∧
      { s1 with slots := s.slots, ports := s.ports } = s ∧
      let raised := s1.internalRaise lost
        { tag := BitVec.ofNat 16 p.val, pattern := 29, base := s.params.portLostPrio, ceiling := s.params.portLostPrio,
          lamps := 0b0100#4, latching := true, mode := .continuous, interval := 0 }
      (if raised.2 then raised.1.arbitrate .byRelease else raised.1).EntriesLeft p false s2 ∧
      exec (.keepaliveExpiry p) s = .next (s2.post (.portState p .lost .timer))

/-- R150: SUBSCRIBE replaces the class mask and event attention whole and answers the subscription now in force, with the
queue's entries kept; a mask that names another class, or an attention byte other than 0 and 1, is BAD_VALUE. -/
def Obligations.SubscribeReplacesSubscription : Prop :=
  ∀ (s : State) (p : Port) (r : Request) (rest : List Request) (mask attention : Byte),
    s.Taking .subscribe p r rest → r.payload = [mask, attention] →
    (mask.toNat ≤ 7 → attention.toNat ≤ 1 →
      exec .subscribe s = .next
        (((s.removeRequest p).setPort p
          { s.port p with
            inbound := rest
            mask := { others := mask.getLsbD 0, sound := mask.getLsbD 1, system := mask.getLsbD 2 }
            attention := decide (attention = 1#8) }).answered p r [mask, attention])) ∧
    (7 < mask.toNat ∨ 1 < attention.toNat →
      exec .subscribe s = .next ((s.removeRequest p).refusedWith p r .badValue []))

/-- R149, R151 and R154: a posted event is offered to every OPEN port, but a PORT_STATE not to the port it reports; it is
admitted where its class for the port is OWN or is in the port's mask, and then is counted into a waiting OVERRUN entry,
or appended below 15 entries, or makes an OVERRUN entry of count 1; nothing else changes. ATTN is asserted exactly while
the port is OPEN with a reply waiting, or an event waiting with event attention on. -/
def Obligations.EventsArePosted : Prop :=
  (∀ (s : State) (e : Event) (p : Port), e.isOverrun = false →
    let x := s.port p
    let takes := x.session = .opened ∧ (∀ source state, e ≠ .portState p state source) ∧
      (match e with
       | .record _ about _ =>
         match about.origin with
         | .host q => q = p ∨ x.mask.others = true
         | .internal => x.mask.system = true
       | .sound _ _ | .silenced _ _ _ | .resounded _ => x.mask.sound = true
       | _ => x.mask.system = true)
    (¬ takes → (s.post e).port p = x) ∧
    (takes → ∀ ordinary count, x.events = ordinary ++ [.overrun count] → (∀ y ∈ ordinary, y.isOverrun = false) →
      (s.post e).port p = { x with events := ordinary ++ [.overrun (if count < 255 then count + 1 else count)] }) ∧
    (takes → (∀ y ∈ x.events, y.isOverrun = false) → x.events.length < 15 →
      (s.post e).port p = { x with events := x.events ++ [e] }) ∧
    (takes → (∀ y ∈ x.events, y.isOverrun = false) → 15 ≤ x.events.length →
      (s.post e).port p = { x with events := x.events ++ [.overrun 1] })) ∧
  (∀ (s : State) (e : Event), { s.post e with ports := s.ports } = s) ∧
  (∀ (s : State) (p : Port), s.attention p = true ↔
    (s.port p).session = .opened ∧
      ((s.port p).replies ≠ [] ∨ ((s.port p).events ≠ [] ∧ (s.port p).attention = true)))

/-! ### The Request Executor (chapter 8) -/

/-- R135: the port served next is the first with a request waiting in cyclic order from the port after the one the pointer
names to that port itself, and there is one exactly while some inbound queue holds a request; a taking takes the head of
that port's queue, answers it, and the pointer then names that port; the pointer keeps its value through every command that
is neither a taking nor a reset; and where no request waits, or the next one is of another kind, nothing happens (the
model's reading of such a command, log 4). -/
def Obligations.ExecutorServesInTurn : Prop :=
  (∀ (s : State) (p : Port), s.nextPort = some p ↔ ∃ r rest, s.Turn p r rest) ∧
  (∀ s : State, s.nextPort = none ↔ ∀ p, (s.port p).inbound = []) ∧
  (∀ (c : Instr) (k : Kind) (s : State) (p : Port) (r : Request) (rest : List Request),
    (c, k) ∈ requestCommands → s.Turn p r rest →
    (kindOf r.kind = some k → ∃ t, exec c s = .next t ∧ t.pointer = p ∧ (t.port p).inbound = rest ∧
      (∀ q, q ≠ p → (t.port q).inbound = (s.port q).inbound ∧ (t.port q).replies = (s.port q).replies) ∧
      ∃ status payload, (t.port p).replies =
        (s.port p).replies ++ [{ seq := r.seq, status := status, payload := payload }]) ∧
    (kindOf r.kind ≠ some k → exec c s = .next s)) ∧
  (∀ (s : State) (p : Port) (r : Request) (rest : List Request), s.Turn p r rest → kindOf r.kind = none →
    ∃ t, exec .unknownKind s = .next t ∧ t.pointer = p ∧ (t.port p).inbound = rest) ∧
  (∀ (s : State) (p : Port) (r : Request) (rest : List Request), s.Turn p r rest → kindOf r.kind ≠ none →
    exec .unknownKind s = .next s) ∧
  (∀ (c : Instr) (s : State), (c = .unknownKind ∨ ∃ k, (c, k) ∈ requestCommands) → (∀ p, (s.port p).inbound = []) →
    exec c s = .next s) ∧
  (∀ (c : Instr) (s t : State), exec c s = .next t → c ≠ .powerOnReset → c ≠ .pinReset → c ≠ .unknownKind →
    (∀ k, (c, k) ∉ requestCommands) → t.pointer = s.pointer)

/-- R137: a refused request changes nothing: where a request command's taking is answered with a status other than OK,
the state is the one before it with the request removed, the pointer moved and the reply posted. -/
def Obligations.RefusalsChangeNothing : Prop :=
  ∀ (c : Instr) (k : Kind) (s t : State) (p : Port) (r : Request) (rest : List Request) (reply : Reply),
    (c, k) ∈ requestCommands → s.Turn p r rest → kindOf r.kind = some k → exec c s = .next t →
    (t.port p).replies = (s.port p).replies ++ [reply] → reply.status ≠ .ok →
    t = (s.removeRequest p).refusedWith p r reply.status reply.payload

/-- R126, R139 and R140: the first four checks, in their order. A kind byte that names no request kind is UNKNOWN_KIND; a
payload length that does not suit the kind is BAD_LENGTH; a request other than HELLO from a port that is not OPEN is
NOT_OPEN; and a request that needs A, P or C from a port without it is NO_RIGHT. R138, Table 8.1: every port holds R; A is
held but by P2 and P3 in profile 2; P by every port in profile 0, by P0, and by P1 in profiles 2 and 3; C by every port in
profile 0, by P0, and by P1 in profile 3; and the rights byte holds R, A, P and C in its bits 0 to 3. -/
def Obligations.FirstChecksInOrder : Prop :=
  (∀ (s : State) (p : Port) (r : Request) (rest : List Request), s.Turn p r rest → kindOf r.kind = none →
    exec .unknownKind s = .next ((s.removeRequest p).refusedWith p r .unknownKind [])) ∧
  (∀ (c : Instr) (k : Kind) (s : State) (p : Port) (r : Request) (rest : List Request),
    (c, k) ∈ requestCommands → s.Turn p r rest → kindOf r.kind = some k →
    (lengthOk k r.payload = false →
      exec c s = .next ((s.removeRequest p).refusedWith p r .badLength [])) ∧
    (lengthOk k r.payload = true → k ≠ .hello → (s.port p).session ≠ .opened →
      exec c s = .next ((s.removeRequest p).refusedWith p r .notOpen [])) ∧
    (lengthOk k r.payload = true → (s.port p).session = .opened →
      (k ∈ [Kind.ackAll, .silence] ∧ (s.rights p).a = false) ∨
        (k ∈ [Kind.patternDefine, .patternAppend, .patternCommit, .patternDelete] ∧ (s.rights p).p = false) ∨
        (k = .configSet ∧ (s.rights p).c = false) →
      exec c s = .next ((s.removeRequest p).refusedWith p r .noRight []))) ∧
  (∀ (s : State) (p : Port),
    (s.rights p).r = true ∧ ((s.rights p).a = true ↔ ¬ (s.params.profile = 2 ∧ 2 ≤ p.val)) ∧
    ((s.rights p).p = true ↔ s.params.profile = 0 ∨ p = 0 ∨ (p = 1 ∧ 2 ≤ s.params.profile.val)) ∧
    ((s.rights p).c = true ↔ s.params.profile = 0 ∨ p = 0 ∨ (p = 1 ∧ s.params.profile = 3)) ∧
    (s.rights p).code.toNat =
      (s.rights p).r.toNat + 2 * (s.rights p).a.toNat + 4 * (s.rights p).p.toNat + 8 * (s.rights p).c.toNat)

/-- R143, R145, R146, R158 and R81: ALERT_INFO, PATTERN_INFO, STATUS and CONFIG_GET answer the fields of what they read,
each where section 11.4 puts it, and leave everything else as it was; a pattern number above 31 is BAD_VALUE.
Table 10.1 and R168: CONFIG_GET of the identifiers 1 to 13 answers the thirteen parameters in the table's order, off as 0
and on as 1, L0 to L3 as 0 to 3 and NONE as 4; another identifier is BAD_VALUE. -/
def Obligations.ReadsReportAndChangeNothing : Prop :=
  (∀ (s : State) (p : Port) (r : Request) (rest : List Request) (i : SlotNo) (q : Record),
    s.Taking .alertInfo p r rest → s.Names r i q →
    exec .alertInfo s = .next
      ((s.removeRequest p).answered p r
        ([(s.slot i).generation, q.origin.code] ++ bytes2 q.tag.toNat ++
          [byte q.pattern.val, byte q.base, byte q.ceiling, byte q.current, byte q.lamps.toNat,
           byte (q.latching.toNat + 2 * (match q.mode with | .continuous => 0 | .counted _ _ => 1) + 4 * q.muted.toNat + 8 * q.soundDue.toNat +
             16 * q.introDone.toNat +
             (match q.raiser with | .host _ orphaned => 32 + 64 * orphaned.toNat | .internal => 0)),
           byte (match q.mode with | .continuous => 0 | .counted n _ => n),
           byte (match q.mode with | .continuous => 0 | .counted _ left => left), byte q.interval] ++
          bytes3 (q.deadline.getD 0) ++ [q.state.code, q.state.ackedBy]))) ∧
  (∀ (s : State) (p : Port) (r : Request) (rest : List Request) (number : PatNo),
    s.Taking .patternInfo p r rest → r.payload = [byte number.val] →
    let e := s.entry number
    let answer := fun (state : Byte) (l : Layout) (fill : Byte) => exec .patternInfo s = .next
      ((s.removeRequest p).answered p r
        ([state, match l.definer with | some o => byte o.val | none => 7#8] ++ bytes2 (l.start.getD 65535) ++
          [byte l.length, fill, byte l.loopIndex, byte l.pace, byte e.refs]))
    (e.body = .empty → exec .patternInfo s = .next
      ((s.removeRequest p).answered p r
        [0#8, 0xFF#8, 0xFF#8, 0xFF#8, 0#8, 0xFF#8, 0xFF#8, 0#8, byte e.refs])) ∧
    (∀ l fill, e.body = .loading l fill → answer 1#8 l (byte fill)) ∧
    (∀ l, e.body = .ready l → answer 2#8 l 0xFF#8) ∧ (∀ l, e.body = .damaged l → answer 3#8 l 0xFF#8)) ∧
  (∀ (s : State) (p : Port) (r : Request) (rest : List Request) (number : Byte),
    s.Taking .patternInfo p r rest → r.payload = [number] → 31 < number.toNat →
    exec .patternInfo s = .next ((s.removeRequest p).refusedWith p r .badValue [])) ∧
  (∀ (s : State) (p : Port) (r : Request) (rest : List Request), s.Taking .status p r rest →
    exec .status s = .next
      ((s.removeRequest p).answered p r
        ((match s.play with
          | .idle => [0#8, 0xFF#8, 0#8]
          | .playing owner _ => [1#8, byte owner.slot.val, owner.generation]
          | .tail _ => [2#8, 0xFF#8, 0#8]) ++
         (match s.order.head? with
          | some i => [byte i.val, (s.slot i).generation]
          | none => [0xFF#8, 0#8]) ++
         [match s.line with | .normal _ => 0#8 | .fault .openLine _ => 1#8 | .fault .short _ => 2#8] ++
         bytes2 (s.free.map Extent.length).sum ++ bytes2 s.freeLargest ++
         [byte ((List.finRange 30).countP (fun i => (s.record i).isSome)),
          byte ((s.port 0).session.code.toNat + 4 * (s.port 1).session.code.toNat +
            16 * (s.port 2).session.code.toNat + 64 * (s.port 3).session.code.toNat)] ++
         bytes3 (s.mute.getD 0)))) ∧
  (∀ (s : State) (p : Port) (r : Request) (rest : List Request) (id : Byte), s.Taking .configGet p r rest →
    r.payload = [id] →
    (∀ v, s.params.value id.toNat = some v →
      exec .configGet s = .next ((s.removeRequest p).answered p r (id :: bytes2 v))) ∧
    ((id.toNat = 0 ∨ 13 < id.toNat) →
      exec .configGet s = .next ((s.removeRequest p).refusedWith p r .badValue [])) ∧
    (1 ≤ id.toNat → id.toNat ≤ 13 → (s.params.value id.toNat).isSome = true)) ∧
  (∀ c : Params,
    c.value 1 = some c.keepalive ∧ c.value 2 = some c.mutePeriod ∧ c.value 3 = some c.urgent ∧
    c.value 4 = some c.quota ∧ c.value 5 = some c.portLostPrio ∧ c.value 6 = some c.sounderFaultPrio ∧
    c.value 7 = some c.storeFaultPrio ∧ c.value 8 = some (if c.lineEnable = true then 1 else 0) ∧
    c.value 9 = some c.senseLow ∧ c.value 10 = some c.senseHigh ∧
    c.value 11 = some (match c.substitute with | some k => k.val | none => 4) ∧
    c.value 12 = some (if c.panelEnable = true then 1 else 0) ∧ c.value 13 = some c.profile.val ∧
    (∀ id, id = 0 ∨ 13 < id → c.value id = none))

/-- R144: ALERT_LIST from a slot 0 to 29 reports the first six occupied slots from there upwards, in slot order, or as many
as there are, with the next occupied slot as the continuation where there is a seventh, and changes nothing else; a start
slot above 29 is BAD_VALUE. -/
def Obligations.AlertListReportsSlots : Prop :=
  ∀ (s : State) (p : Port) (r : Request) (rest : List Request) (start : Byte),
    s.Taking .alertList p r rest → r.payload = [start] →
    (30 ≤ start.toNat → exec .alertList s = .next ((s.removeRequest p).refusedWith p r .badValue [])) ∧
    (start.toNat < 30 → ∃ listed beyond : List SlotNo,
      (listed ++ beyond).Pairwise (fun i j => i < j) ∧
      (∀ i, i ∈ listed ++ beyond ↔ start.toNat ≤ i.val ∧ (s.record i).isSome = true) ∧
      listed.length ≤ 6 ∧ (beyond ≠ [] → listed.length = 6) ∧
      exec .alertList s = .next
        ((s.removeRequest p).answered p r
          ([byte listed.length, match beyond with | i :: _ => byte i.val | [] => 0xFF#8] ++
            listed.flatMap (fun i =>
              match s.record i with
              | none => []
              | some q =>
                [byte i.val, (s.slot i).generation, q.origin.code] ++ bytes2 q.tag.toNat ++
                  [q.state.code, byte q.current, byte q.lamps.toNat,
                   byte (q.muted.toNat + 2 * q.soundDue.toNat +
                     (match q.raiser with | .host _ orphaned => 4 + 8 * orphaned.toNat | .internal => 0))]))))

/-! ### The Configuration Table (chapter 10) -/

/-- R159, R160 and R112: CONFIG_SET by a port holding C writes one of the parameters 1 to 12 within its range, and answers
the value; each identifier writes the parameter of Table 10.1 (0 as off and 1 as on; 0 to 3 as L0 to L3, 4 as NONE), what it
writes is what CONFIG_GET reads, and no other parameter changes; a value out of range, an identifier
outside 1 to 13, or a sense threshold out of order is BAD_VALUE, and the profile is NO_RIGHT. Turning the line monitor
enable off stops the sample timer, forces NORMAL and returns SOUNDER_FAULT where the state was FAULT; turning it on starts
the timer from 100 ms; writing the value it holds changes nothing more. -/
def Obligations.ConfigSetWritesOneParameter : Prop :=
  ∀ (s : State) (p : Port) (r : Request) (rest : List Request) (id hi lo : Byte),
    s.Taking .configSet p r rest → (s.rights p).c = true → r.payload = [id, hi, lo] →
    let v := 256 * hi.toNat + lo.toNat
    let inRange :=
      match id.toNat with
      | 1 => v ≤ 255
      | 2 => v ≤ 3600
      | 3 => 2 ≤ v ∧ v ≤ 8
      | 4 => 1 ≤ v ∧ v ≤ 24
      | 5 | 6 | 7 => 1 ≤ v ∧ v ≤ 7
      | 8 | 12 => v ≤ 1
      | 9 => v ≤ 255 ∧ v ≤ s.params.senseHigh
      | 10 => v ≤ 255 ∧ s.params.senseLow ≤ v
      | 11 => v ≤ 4
      | _ => False
    (id = 13#8 → exec .configSet s = .next ((s.removeRequest p).refusedWith p r .noRight [])) ∧
    (id ≠ 13#8 → ¬ inRange → exec .configSet s = .next ((s.removeRequest p).refusedWith p r .badValue [])) ∧
    (inRange →
      let c : Params :=
        match id.toNat with
        | 1 => { s.params with keepalive := v }
        | 2 => { s.params with mutePeriod := v }
        | 3 => { s.params with urgent := v }
        | 4 => { s.params with quota := v }
        | 5 => { s.params with portLostPrio := v }
        | 6 => { s.params with sounderFaultPrio := v }
        | 7 => { s.params with storeFaultPrio := v }
        | 8 => { s.params with lineEnable := decide (v = 1) }
        | 9 => { s.params with senseLow := v }
        | 10 => { s.params with senseHigh := v }
        | 11 => { s.params with substitute :=
            match v with | 0 => some 0 | 1 => some 1 | 2 => some 2 | 3 => some 3 | _ => none }
        | 12 => { s.params with panelEnable := decide (v = 1) }
        | _ => s.params
      c.value id.toNat = some v ∧
      (∀ other, other ≠ id.toNat → c.value other = s.params.value other) ∧
      let written : State := { s.removeRequest p with params := c }
      (c.lineEnable = s.params.lineEnable → exec .configSet s = .next (written.answered p r [id, hi, lo])) ∧
      (s.params.lineEnable = false → c.lineEnable = true →
        exec .configSet s = .next
          ((State.setLine { written with lineTimer := some 100 } (.normal 0)).answered p r [id, hi, lo])) ∧
      (s.params.lineEnable = true → c.lineEnable = false →
        let normal := State.setLine { written with lineTimer := none } (.normal 0)
        let returned := normal.internalReturn 28
        exec .configSet s = .next
          ((if s.line.isFault = true then
              (if returned.2 then returned.1.arbitrate .byRelease else returned.1)
            else normal).answered p r [id, hi, lo])))

/-- R138, R139 and R157: a parameter is changed only by a CONFIG_SET taken from an OPEN port that holds C, or by a reset,
and the profile, and with it every port's rights, only by the end of a reset. R99: only its tick and a reset change the
flash phase. No command changes the queue of waiting commands (the model's own field, log 7). -/
def Obligations.GuardedFieldsChangeOnlyByTheirCommands : Prop :=
  ∀ (c : Instr) (s t : State), exec c s = .next t →
    (t.params ≠ s.params →
      c = .powerOnReset ∨ c = .pinReset ∨ (∃ prof1 prof0, c = .resetEnd prof1 prof0) ∨
        (c = .configSet ∧ ∃ p r rest, s.Turn p r rest ∧ (s.port p).session = .opened ∧ (s.rights p).c = true)) ∧
    (t.params.profile ≠ s.params.profile → ∃ prof1 prof0, c = .resetEnd prof1 prof0) ∧
    ((∀ prof1 prof0, c ≠ .resetEnd prof1 prof0) → ∀ p, t.rights p = s.rights p) ∧
    (t.flashPhase ≠ s.flashPhase → c = .flashClockTick ∨ c = .powerOnReset ∨ c = .pinReset) ∧
    t.pending = s.pending

/-! ### What every step keeps -/

/-- R1, R2, R3: a host record keeps its slot, origin and tag while its generation stands: where a slot holds a host record
before a command and a record after it, with the generation unchanged and no reset, the origin and the tag are the same. -/
def Obligations.RecordsKeepTheirIdentity : Prop :=
  ∀ (c : Instr) (s t : State) (i : SlotNo) (q q' : Record), s.TagsDistinct → s.SlotsByOrigin →
    exec c s = .next t → c ≠ .powerOnReset → c ≠ .pinReset →
    s.record i = some q → t.record i = some q' → (t.slot i).generation = (s.slot i).generation →
    q.origin ≠ .internal → q'.origin = q.origin ∧ q'.tag = q.tag

/-- R83, R84: the reference count of every entry equals the number of occupied records that name it, and no record names
an EMPTY or LOADING entry; every step keeps it so. -/
def Obligations.StepKeepsReferenceCounts : Prop :=
  ∀ s t : State, s.CountsExact → step s = .next t → t.CountsExact

/-- R19: the Arrival List holds every occupied record exactly once and no other slot; every step keeps it so. -/
def Obligations.StepKeepsArrivalList : Prop :=
  ∀ s t : State, s.ArrivalExact → step s = .next t → t.ArrivalExact

/-- R50, R35: whoever owns the Play Context is an occupied record that is ALERTING, not muted and sound due, and an IDLE
context leaves no record in the Sounding Order; every step keeps it so. R49, Table 3.1: while PLAYING the pattern number is the
owner's and the step index is below its length, and the time left is at most 5040 ms; every step keeps it so, where the
reference counts are exact and the entries in range, which the steps keep too (StepKeepsReferenceCounts,
StepKeepsStoreDivided). -/
def Obligations.StepKeepsOwner : Prop :=
  (∀ s t : State, s.OwnerStands → s.IdleSilent → step s = .next t → t.OwnerStands ∧ t.IdleSilent) ∧
  (∀ s t : State, s.PlaySound → s.OwnerStands → s.CountsExact → s.EntriesInRange → step s = .next t → t.PlaySound)

/-- R104: the Sounder Driver drives what the Play Context and the Line Monitor call for, so only while the monitor is not
in FAULT with kind SHORT; every step keeps it so. It follows at each change of the Play Context and of the monitor. R105: a
new period begins where the drive changes; in the first half of each period SND_A is high and in the second SND_B, each for
the duty fraction from the half's beginning, and both are low otherwise and while the drive is OFF. (That the bridge's time
is kept in milliseconds, modulo 10, is the model's, log 15.) -/
def Obligations.StepKeepsDrive : Prop :=
  (∀ s t : State, s.DriveFollows → step s = .next t → t.DriveFollows) ∧
  (∀ s : State, s.DriveFollows →
    (∀ now, s.play.now = some now → now.tone ≠ 0 → s.line.isShort = false →
      s.drive = some { frequency := 200 + 100 * now.tone.toNat, duty := 25 * (now.level.toNat + 1) }) ∧
    ((∀ now, s.play.now = some now → now.tone = 0) ∨ s.line.isShort = true → s.drive = none)) ∧
  (∀ (s : State) (play : Play),
    let t := s.setPlay play
    { t with drive := s.drive, driveMs := s.driveMs } = { s with play := play } ∧ t.DriveFollows ∧
      t.driveMs = if t.drive = s.drive then s.driveMs else 0) ∧
  (∀ (s : State) (line : Line),
    let t := s.setLine line
    { t with drive := s.drive, driveMs := s.driveMs } = { s with line := line } ∧ t.DriveFollows ∧
      t.driveMs = if t.drive = s.drive then s.driveMs else 0) ∧
  (∀ s t : State, s.clkin = true → s.inReset = false → exec .tick s = .next t →
    t.driveMs = if s.drive = none then 0 else (s.driveMs + 1) % 10) ∧
  (∀ (s : State) (us : Nat),
    (s.drive = none → s.bridge us = (.low, .low)) ∧
    (∀ d, s.drive = some d →
      let place := (s.driveMs * 1000 + us) * d.frequency % 1000000
      ((s.bridge us).1 = .high ↔ place < 500000 ∧ place * 100 < d.duty * 500000) ∧
      ((s.bridge us).2 = .high ↔ 500000 ≤ place ∧ (place - 500000) * 100 < d.duty * 500000)))

/-- R124: for each port the requests in its inbound queue plus the replies in its reply queue are at most 4; every step
keeps it so. -/
def Obligations.StepKeepsLoadsBounded : Prop :=
  ∀ s t : State, s.LoadsBounded → step s = .next t → t.LoadsBounded

/-- R151, R152: each event queue holds at most 16 entries, at most one of them an OVERRUN entry, of count 1 to 255 and the
newest; every step keeps it so. -/
def Obligations.StepKeepsEventQueues : Prop :=
  ∀ s t : State, s.QueuesSound → step s = .next t → t.QueuesSound

/-- R73 and R70: the reserved and the free extents cover each Step Store index exactly once, no two free extents are
adjacent, and the Step Store keeps its canonical form; every step keeps it so, while the built-in entries stand, which
the steps keep too (StepKeepsReferenceCounts). -/
def Obligations.StepKeepsStoreDivided : Prop :=
  (∀ s t : State, s.BuiltInsStand → s.StoreDivided → step s = .next t → t.StoreDivided) ∧
  (∀ s t : State, s.store.wf = true → step s = .next t → t.store.wf = true)

/-- R14, R15 and Table 1.2: every record's current priority lies between its base priority and its ceiling, its cycles left
at most n, and its deadline runs exactly while it is ALERTING below its ceiling with an interval; every step keeps it so,
with the parameters in range. -/
def Obligations.StepKeepsRecordsSound : Prop :=
  ∀ s t : State, s.RecordsSound → s.params.InRange → step s = .next t → t.RecordsSound ∧ t.params.InRange

/-- R23 and Table 1.6: an internal record is ALERTING or ACKNOWLEDGED only while its cause stands, host slots hold host
records and internal slots internal ones, and no two host records share origin and tag; every step keeps it so. -/
def Obligations.StepKeepsCauses : Prop :=
  ∀ s t : State, s.CausesStand → s.SlotsByOrigin → s.TagsDistinct → s.LineSound → step s = .next t →
    t.CausesStand ∧ t.SlotsByOrigin ∧ t.TagsDistinct ∧ t.LineSound

/-- R92, R99, R131, R157 and Table 10.2: the parameters, the debounce counts, the flash phase and the timers stay in range,
the sample timer runs exactly while the enable is on, and a keepalive timer and a transaction only where they may; every
step keeps it so. -/
def Obligations.StepKeepsTimersInRange : Prop :=
  ∀ s t : State, s.TimersSound → s.PortsSound → step s = .next t → t.TimersSound ∧ t.PortsSound

/-- The state after reset is sound in every one of the ways that the steps keep; and it is the one that a power-on reset,
ended with both straps low, leaves of any state with the chip selects high, CLKIN present and no command waiting (the
straps and pin levels are the model's choice, log 1). -/
def Obligations.ResetStateIsSound : Prop :=
  (State.reset.CountsExact ∧ State.reset.ArrivalExact ∧ State.reset.OwnerStands ∧ State.reset.IdleSilent ∧
  State.reset.PlaySound ∧ State.reset.DriveFollows ∧ State.reset.LoadsBounded ∧ State.reset.QueuesSound ∧ State.reset.StoreDivided ∧
  State.reset.store.wf = true ∧ State.reset.RecordsSound ∧ State.reset.params.InRange ∧ State.reset.CausesStand ∧
  State.reset.SlotsByOrigin ∧ State.reset.TagsDistinct ∧ State.reset.LineSound ∧ State.reset.TimersSound ∧
  State.reset.PortsSound) ∧
  (∀ s : State, (∀ p, (s.port p).selectLow = false) → s.clkin = true → s.pending = [] →
     ∃ t, exec .powerOnReset s = .next t ∧ exec (.resetEnd .low .low) t = .next State.reset)
end

