-- ==== Sys2Proof/Laws/State.lean ====
section
/-! SUPPORT. The small lemmas of the state: what each update of one field leaves of every other, and what a read gives
after a write of a numbered piece of state. -/

namespace Sys2Proof.Machine

variable (s : State)


/-! ### State.setSlot -/

@[simp] theorem State.setSlot_slots (i : SlotNo) (x : Slot) : (s.setSlot i x).slots = s.slots.set i x := rfl
@[simp] theorem State.setSlot_arrival (i : SlotNo) (x : Slot) : (s.setSlot i x).arrival = s.arrival := rfl
@[simp] theorem State.setSlot_mute (i : SlotNo) (x : Slot) : (s.setSlot i x).mute = s.mute := rfl
@[simp] theorem State.setSlot_play (i : SlotNo) (x : Slot) : (s.setSlot i x).play = s.play := rfl
@[simp] theorem State.setSlot_store (i : SlotNo) (x : Slot) : (s.setSlot i x).store = s.store := rfl
@[simp] theorem State.setSlot_directory (i : SlotNo) (x : Slot) : (s.setSlot i x).directory = s.directory := rfl
@[simp] theorem State.setSlot_free (i : SlotNo) (x : Slot) : (s.setSlot i x).free = s.free := rfl
@[simp] theorem State.setSlot_panel (i : SlotNo) (x : Slot) : (s.setSlot i x).panel = s.panel := rfl
@[simp] theorem State.setSlot_lampTest (i : SlotNo) (x : Slot) : (s.setSlot i x).lampTest = s.lampTest := rfl
@[simp] theorem State.setSlot_flashPhase (i : SlotNo) (x : Slot) : (s.setSlot i x).flashPhase = s.flashPhase := rfl
@[simp] theorem State.setSlot_substituteRole (i : SlotNo) (x : Slot) : (s.setSlot i x).substituteRole = s.substituteRole := rfl
@[simp] theorem State.setSlot_drive (i : SlotNo) (x : Slot) : (s.setSlot i x).drive = s.drive := rfl
@[simp] theorem State.setSlot_driveMs (i : SlotNo) (x : Slot) : (s.setSlot i x).driveMs = s.driveMs := rfl
@[simp] theorem State.setSlot_line (i : SlotNo) (x : Slot) : (s.setSlot i x).line = s.line := rfl
@[simp] theorem State.setSlot_lineTimer (i : SlotNo) (x : Slot) : (s.setSlot i x).lineTimer = s.lineTimer := rfl
@[simp] theorem State.setSlot_ports (i : SlotNo) (x : Slot) : (s.setSlot i x).ports = s.ports := rfl
@[simp] theorem State.setSlot_pointer (i : SlotNo) (x : Slot) : (s.setSlot i x).pointer = s.pointer := rfl
@[simp] theorem State.setSlot_params (i : SlotNo) (x : Slot) : (s.setSlot i x).params = s.params := rfl
@[simp] theorem State.setSlot_clkin (i : SlotNo) (x : Slot) : (s.setSlot i x).clkin = s.clkin := rfl
@[simp] theorem State.setSlot_inReset (i : SlotNo) (x : Slot) : (s.setSlot i x).inReset = s.inReset := rfl
@[simp] theorem State.setSlot_pending (i : SlotNo) (x : Slot) : (s.setSlot i x).pending = s.pending := rfl

/-! ### State.setRecord -/

@[simp] theorem State.setRecord_slots (i : SlotNo) (r : Record) : (s.setRecord i r).slots = s.slots.set i { s.slot i with record := some r } := rfl
@[simp] theorem State.setRecord_arrival (i : SlotNo) (r : Record) : (s.setRecord i r).arrival = s.arrival := rfl
@[simp] theorem State.setRecord_mute (i : SlotNo) (r : Record) : (s.setRecord i r).mute = s.mute := rfl
@[simp] theorem State.setRecord_play (i : SlotNo) (r : Record) : (s.setRecord i r).play = s.play := rfl
@[simp] theorem State.setRecord_store (i : SlotNo) (r : Record) : (s.setRecord i r).store = s.store := rfl
@[simp] theorem State.setRecord_directory (i : SlotNo) (r : Record) : (s.setRecord i r).directory = s.directory := rfl
@[simp] theorem State.setRecord_free (i : SlotNo) (r : Record) : (s.setRecord i r).free = s.free := rfl
@[simp] theorem State.setRecord_panel (i : SlotNo) (r : Record) : (s.setRecord i r).panel = s.panel := rfl
@[simp] theorem State.setRecord_lampTest (i : SlotNo) (r : Record) : (s.setRecord i r).lampTest = s.lampTest := rfl
@[simp] theorem State.setRecord_flashPhase (i : SlotNo) (r : Record) : (s.setRecord i r).flashPhase = s.flashPhase := rfl
@[simp] theorem State.setRecord_substituteRole (i : SlotNo) (r : Record) : (s.setRecord i r).substituteRole = s.substituteRole := rfl
@[simp] theorem State.setRecord_drive (i : SlotNo) (r : Record) : (s.setRecord i r).drive = s.drive := rfl
@[simp] theorem State.setRecord_driveMs (i : SlotNo) (r : Record) : (s.setRecord i r).driveMs = s.driveMs := rfl
@[simp] theorem State.setRecord_line (i : SlotNo) (r : Record) : (s.setRecord i r).line = s.line := rfl
@[simp] theorem State.setRecord_lineTimer (i : SlotNo) (r : Record) : (s.setRecord i r).lineTimer = s.lineTimer := rfl
@[simp] theorem State.setRecord_ports (i : SlotNo) (r : Record) : (s.setRecord i r).ports = s.ports := rfl
@[simp] theorem State.setRecord_pointer (i : SlotNo) (r : Record) : (s.setRecord i r).pointer = s.pointer := rfl
@[simp] theorem State.setRecord_params (i : SlotNo) (r : Record) : (s.setRecord i r).params = s.params := rfl
@[simp] theorem State.setRecord_clkin (i : SlotNo) (r : Record) : (s.setRecord i r).clkin = s.clkin := rfl
@[simp] theorem State.setRecord_inReset (i : SlotNo) (r : Record) : (s.setRecord i r).inReset = s.inReset := rfl
@[simp] theorem State.setRecord_pending (i : SlotNo) (r : Record) : (s.setRecord i r).pending = s.pending := rfl

/-! ### State.setEntry -/

@[simp] theorem State.setEntry_slots (n : PatNo) (e : Entry) : (s.setEntry n e).slots = s.slots := rfl
@[simp] theorem State.setEntry_arrival (n : PatNo) (e : Entry) : (s.setEntry n e).arrival = s.arrival := rfl
@[simp] theorem State.setEntry_mute (n : PatNo) (e : Entry) : (s.setEntry n e).mute = s.mute := rfl
@[simp] theorem State.setEntry_play (n : PatNo) (e : Entry) : (s.setEntry n e).play = s.play := rfl
@[simp] theorem State.setEntry_store (n : PatNo) (e : Entry) : (s.setEntry n e).store = s.store := rfl
@[simp] theorem State.setEntry_directory (n : PatNo) (e : Entry) : (s.setEntry n e).directory = s.directory.set n e := rfl
@[simp] theorem State.setEntry_free (n : PatNo) (e : Entry) : (s.setEntry n e).free = s.free := rfl
@[simp] theorem State.setEntry_panel (n : PatNo) (e : Entry) : (s.setEntry n e).panel = s.panel := rfl
@[simp] theorem State.setEntry_lampTest (n : PatNo) (e : Entry) : (s.setEntry n e).lampTest = s.lampTest := rfl
@[simp] theorem State.setEntry_flashPhase (n : PatNo) (e : Entry) : (s.setEntry n e).flashPhase = s.flashPhase := rfl
@[simp] theorem State.setEntry_substituteRole (n : PatNo) (e : Entry) : (s.setEntry n e).substituteRole = s.substituteRole := rfl
@[simp] theorem State.setEntry_drive (n : PatNo) (e : Entry) : (s.setEntry n e).drive = s.drive := rfl
@[simp] theorem State.setEntry_driveMs (n : PatNo) (e : Entry) : (s.setEntry n e).driveMs = s.driveMs := rfl
@[simp] theorem State.setEntry_line (n : PatNo) (e : Entry) : (s.setEntry n e).line = s.line := rfl
@[simp] theorem State.setEntry_lineTimer (n : PatNo) (e : Entry) : (s.setEntry n e).lineTimer = s.lineTimer := rfl
@[simp] theorem State.setEntry_ports (n : PatNo) (e : Entry) : (s.setEntry n e).ports = s.ports := rfl
@[simp] theorem State.setEntry_pointer (n : PatNo) (e : Entry) : (s.setEntry n e).pointer = s.pointer := rfl
@[simp] theorem State.setEntry_params (n : PatNo) (e : Entry) : (s.setEntry n e).params = s.params := rfl
@[simp] theorem State.setEntry_clkin (n : PatNo) (e : Entry) : (s.setEntry n e).clkin = s.clkin := rfl
@[simp] theorem State.setEntry_inReset (n : PatNo) (e : Entry) : (s.setEntry n e).inReset = s.inReset := rfl
@[simp] theorem State.setEntry_pending (n : PatNo) (e : Entry) : (s.setEntry n e).pending = s.pending := rfl

/-! ### State.setPort -/

@[simp] theorem State.setPort_slots (p : Port) (x : PortState) : (s.setPort p x).slots = s.slots := rfl
@[simp] theorem State.setPort_arrival (p : Port) (x : PortState) : (s.setPort p x).arrival = s.arrival := rfl
@[simp] theorem State.setPort_mute (p : Port) (x : PortState) : (s.setPort p x).mute = s.mute := rfl
@[simp] theorem State.setPort_play (p : Port) (x : PortState) : (s.setPort p x).play = s.play := rfl
@[simp] theorem State.setPort_store (p : Port) (x : PortState) : (s.setPort p x).store = s.store := rfl
@[simp] theorem State.setPort_directory (p : Port) (x : PortState) : (s.setPort p x).directory = s.directory := rfl
@[simp] theorem State.setPort_free (p : Port) (x : PortState) : (s.setPort p x).free = s.free := rfl
@[simp] theorem State.setPort_panel (p : Port) (x : PortState) : (s.setPort p x).panel = s.panel := rfl
@[simp] theorem State.setPort_lampTest (p : Port) (x : PortState) : (s.setPort p x).lampTest = s.lampTest := rfl
@[simp] theorem State.setPort_flashPhase (p : Port) (x : PortState) : (s.setPort p x).flashPhase = s.flashPhase := rfl
@[simp] theorem State.setPort_substituteRole (p : Port) (x : PortState) : (s.setPort p x).substituteRole = s.substituteRole := rfl
@[simp] theorem State.setPort_drive (p : Port) (x : PortState) : (s.setPort p x).drive = s.drive := rfl
@[simp] theorem State.setPort_driveMs (p : Port) (x : PortState) : (s.setPort p x).driveMs = s.driveMs := rfl
@[simp] theorem State.setPort_line (p : Port) (x : PortState) : (s.setPort p x).line = s.line := rfl
@[simp] theorem State.setPort_lineTimer (p : Port) (x : PortState) : (s.setPort p x).lineTimer = s.lineTimer := rfl
@[simp] theorem State.setPort_ports (p : Port) (x : PortState) : (s.setPort p x).ports = s.ports.set p x := rfl
@[simp] theorem State.setPort_pointer (p : Port) (x : PortState) : (s.setPort p x).pointer = s.pointer := rfl
@[simp] theorem State.setPort_params (p : Port) (x : PortState) : (s.setPort p x).params = s.params := rfl
@[simp] theorem State.setPort_clkin (p : Port) (x : PortState) : (s.setPort p x).clkin = s.clkin := rfl
@[simp] theorem State.setPort_inReset (p : Port) (x : PortState) : (s.setPort p x).inReset = s.inReset := rfl
@[simp] theorem State.setPort_pending (p : Port) (x : PortState) : (s.setPort p x).pending = s.pending := rfl

/-! ### State.post -/

@[simp] theorem State.post_slots (e : Event) : (s.post e).slots = s.slots := rfl
@[simp] theorem State.post_arrival (e : Event) : (s.post e).arrival = s.arrival := rfl
@[simp] theorem State.post_mute (e : Event) : (s.post e).mute = s.mute := rfl
@[simp] theorem State.post_play (e : Event) : (s.post e).play = s.play := rfl
@[simp] theorem State.post_store (e : Event) : (s.post e).store = s.store := rfl
@[simp] theorem State.post_directory (e : Event) : (s.post e).directory = s.directory := rfl
@[simp] theorem State.post_free (e : Event) : (s.post e).free = s.free := rfl
@[simp] theorem State.post_panel (e : Event) : (s.post e).panel = s.panel := rfl
@[simp] theorem State.post_lampTest (e : Event) : (s.post e).lampTest = s.lampTest := rfl
@[simp] theorem State.post_flashPhase (e : Event) : (s.post e).flashPhase = s.flashPhase := rfl
@[simp] theorem State.post_substituteRole (e : Event) : (s.post e).substituteRole = s.substituteRole := rfl
@[simp] theorem State.post_drive (e : Event) : (s.post e).drive = s.drive := rfl
@[simp] theorem State.post_driveMs (e : Event) : (s.post e).driveMs = s.driveMs := rfl
@[simp] theorem State.post_line (e : Event) : (s.post e).line = s.line := rfl
@[simp] theorem State.post_lineTimer (e : Event) : (s.post e).lineTimer = s.lineTimer := rfl
@[simp] theorem State.post_ports (e : Event) : (s.post e).ports = Vector.ofFn (fun p : Port => (s.port p).offer p e) := rfl
@[simp] theorem State.post_pointer (e : Event) : (s.post e).pointer = s.pointer := rfl
@[simp] theorem State.post_params (e : Event) : (s.post e).params = s.params := rfl
@[simp] theorem State.post_clkin (e : Event) : (s.post e).clkin = s.clkin := rfl
@[simp] theorem State.post_inReset (e : Event) : (s.post e).inReset = s.inReset := rfl
@[simp] theorem State.post_pending (e : Event) : (s.post e).pending = s.pending := rfl

/-! ### State.postReply -/

@[simp] theorem State.postReply_slots (p : Port) (r : Reply) : (s.postReply p r).slots = s.slots := rfl
@[simp] theorem State.postReply_arrival (p : Port) (r : Reply) : (s.postReply p r).arrival = s.arrival := rfl
@[simp] theorem State.postReply_mute (p : Port) (r : Reply) : (s.postReply p r).mute = s.mute := rfl
@[simp] theorem State.postReply_play (p : Port) (r : Reply) : (s.postReply p r).play = s.play := rfl
@[simp] theorem State.postReply_store (p : Port) (r : Reply) : (s.postReply p r).store = s.store := rfl
@[simp] theorem State.postReply_directory (p : Port) (r : Reply) : (s.postReply p r).directory = s.directory := rfl
@[simp] theorem State.postReply_free (p : Port) (r : Reply) : (s.postReply p r).free = s.free := rfl
@[simp] theorem State.postReply_panel (p : Port) (r : Reply) : (s.postReply p r).panel = s.panel := rfl
@[simp] theorem State.postReply_lampTest (p : Port) (r : Reply) : (s.postReply p r).lampTest = s.lampTest := rfl
@[simp] theorem State.postReply_flashPhase (p : Port) (r : Reply) : (s.postReply p r).flashPhase = s.flashPhase := rfl
@[simp] theorem State.postReply_substituteRole (p : Port) (r : Reply) : (s.postReply p r).substituteRole = s.substituteRole := rfl
@[simp] theorem State.postReply_drive (p : Port) (r : Reply) : (s.postReply p r).drive = s.drive := rfl
@[simp] theorem State.postReply_driveMs (p : Port) (r : Reply) : (s.postReply p r).driveMs = s.driveMs := rfl
@[simp] theorem State.postReply_line (p : Port) (r : Reply) : (s.postReply p r).line = s.line := rfl
@[simp] theorem State.postReply_lineTimer (p : Port) (r : Reply) : (s.postReply p r).lineTimer = s.lineTimer := rfl
@[simp] theorem State.postReply_ports (p : Port) (r : Reply) : (s.postReply p r).ports = s.ports.set p { s.port p with replies := (s.port p).replies ++ [r] } := rfl
@[simp] theorem State.postReply_pointer (p : Port) (r : Reply) : (s.postReply p r).pointer = s.pointer := rfl
@[simp] theorem State.postReply_params (p : Port) (r : Reply) : (s.postReply p r).params = s.params := rfl
@[simp] theorem State.postReply_clkin (p : Port) (r : Reply) : (s.postReply p r).clkin = s.clkin := rfl
@[simp] theorem State.postReply_inReset (p : Port) (r : Reply) : (s.postReply p r).inReset = s.inReset := rfl
@[simp] theorem State.postReply_pending (p : Port) (r : Reply) : (s.postReply p r).pending = s.pending := rfl

/-! ### State.setWord -/

@[simp] theorem State.setWord_slots (i : Nat) (w : StepWord) : (s.setWord i w).slots = s.slots := by
  unfold State.setWord; split <;> rfl
@[simp] theorem State.setWord_arrival (i : Nat) (w : StepWord) : (s.setWord i w).arrival = s.arrival := by
  unfold State.setWord; split <;> rfl
@[simp] theorem State.setWord_mute (i : Nat) (w : StepWord) : (s.setWord i w).mute = s.mute := by
  unfold State.setWord; split <;> rfl
@[simp] theorem State.setWord_play (i : Nat) (w : StepWord) : (s.setWord i w).play = s.play := by
  unfold State.setWord; split <;> rfl
theorem State.setWord_store (i : Nat) (w : StepWord) (h : i < Config.stepWords) :
    (s.setWord i w).store = s.store.write i w := by simp [State.setWord, h]
@[simp] theorem State.setWord_directory (i : Nat) (w : StepWord) : (s.setWord i w).directory = s.directory := by
  unfold State.setWord; split <;> rfl
@[simp] theorem State.setWord_free (i : Nat) (w : StepWord) : (s.setWord i w).free = s.free := by
  unfold State.setWord; split <;> rfl
@[simp] theorem State.setWord_panel (i : Nat) (w : StepWord) : (s.setWord i w).panel = s.panel := by
  unfold State.setWord; split <;> rfl
@[simp] theorem State.setWord_lampTest (i : Nat) (w : StepWord) : (s.setWord i w).lampTest = s.lampTest := by
  unfold State.setWord; split <;> rfl
@[simp] theorem State.setWord_flashPhase (i : Nat) (w : StepWord) : (s.setWord i w).flashPhase = s.flashPhase := by
  unfold State.setWord; split <;> rfl
@[simp] theorem State.setWord_substituteRole (i : Nat) (w : StepWord) : (s.setWord i w).substituteRole = s.substituteRole := by
  unfold State.setWord; split <;> rfl
@[simp] theorem State.setWord_drive (i : Nat) (w : StepWord) : (s.setWord i w).drive = s.drive := by
  unfold State.setWord; split <;> rfl
@[simp] theorem State.setWord_driveMs (i : Nat) (w : StepWord) : (s.setWord i w).driveMs = s.driveMs := by
  unfold State.setWord; split <;> rfl
@[simp] theorem State.setWord_line (i : Nat) (w : StepWord) : (s.setWord i w).line = s.line := by
  unfold State.setWord; split <;> rfl
@[simp] theorem State.setWord_lineTimer (i : Nat) (w : StepWord) : (s.setWord i w).lineTimer = s.lineTimer := by
  unfold State.setWord; split <;> rfl
@[simp] theorem State.setWord_ports (i : Nat) (w : StepWord) : (s.setWord i w).ports = s.ports := by
  unfold State.setWord; split <;> rfl
@[simp] theorem State.setWord_pointer (i : Nat) (w : StepWord) : (s.setWord i w).pointer = s.pointer := by
  unfold State.setWord; split <;> rfl
@[simp] theorem State.setWord_params (i : Nat) (w : StepWord) : (s.setWord i w).params = s.params := by
  unfold State.setWord; split <;> rfl
@[simp] theorem State.setWord_clkin (i : Nat) (w : StepWord) : (s.setWord i w).clkin = s.clkin := by
  unfold State.setWord; split <;> rfl
@[simp] theorem State.setWord_inReset (i : Nat) (w : StepWord) : (s.setWord i w).inReset = s.inReset := by
  unfold State.setWord; split <;> rfl
@[simp] theorem State.setWord_pending (i : Nat) (w : StepWord) : (s.setWord i w).pending = s.pending := by
  unfold State.setWord; split <;> rfl

/-! ### The drive's updates (R104) -/

/-- Everything followDrive does: the drive its inputs call for, and a new period where that is a change (R104, R105). -/
theorem State.followDrive_eq : s.followDrive =
    { s with drive := wantedDrive s.play s.line
             driveMs := if wantedDrive s.play s.line = s.drive then s.driveMs else 0 } := by
  unfold State.followDrive
  by_cases h : wantedDrive s.play s.line = s.drive
  · simp [h]
  · simp [h]

@[simp] theorem State.setPlay_slots (play : Play) : (s.setPlay play).slots = s.slots := by
  simp [State.setPlay, State.followDrive_eq]
@[simp] theorem State.setPlay_arrival (play : Play) : (s.setPlay play).arrival = s.arrival := by
  simp [State.setPlay, State.followDrive_eq]
@[simp] theorem State.setPlay_mute (play : Play) : (s.setPlay play).mute = s.mute := by
  simp [State.setPlay, State.followDrive_eq]
@[simp] theorem State.setPlay_play (play : Play) : (s.setPlay play).play = play := by
  simp [State.setPlay, State.followDrive_eq]
@[simp] theorem State.setPlay_store (play : Play) : (s.setPlay play).store = s.store := by
  simp [State.setPlay, State.followDrive_eq]
@[simp] theorem State.setPlay_directory (play : Play) : (s.setPlay play).directory = s.directory := by
  simp [State.setPlay, State.followDrive_eq]
@[simp] theorem State.setPlay_free (play : Play) : (s.setPlay play).free = s.free := by
  simp [State.setPlay, State.followDrive_eq]
@[simp] theorem State.setPlay_panel (play : Play) : (s.setPlay play).panel = s.panel := by
  simp [State.setPlay, State.followDrive_eq]
@[simp] theorem State.setPlay_lampTest (play : Play) : (s.setPlay play).lampTest = s.lampTest := by
  simp [State.setPlay, State.followDrive_eq]
@[simp] theorem State.setPlay_flashPhase (play : Play) : (s.setPlay play).flashPhase = s.flashPhase := by
  simp [State.setPlay, State.followDrive_eq]
@[simp] theorem State.setPlay_substituteRole (play : Play) : (s.setPlay play).substituteRole = s.substituteRole := by
  simp [State.setPlay, State.followDrive_eq]
@[simp] theorem State.setPlay_drive (play : Play) : (s.setPlay play).drive = wantedDrive play s.line := by
  simp [State.setPlay, State.followDrive_eq]
@[simp] theorem State.setPlay_driveMs (play : Play) : (s.setPlay play).driveMs = if wantedDrive play s.line = s.drive then s.driveMs else 0 := by
  simp [State.setPlay, State.followDrive_eq]
@[simp] theorem State.setPlay_line (play : Play) : (s.setPlay play).line = s.line := by
  simp [State.setPlay, State.followDrive_eq]
@[simp] theorem State.setPlay_lineTimer (play : Play) : (s.setPlay play).lineTimer = s.lineTimer := by
  simp [State.setPlay, State.followDrive_eq]
@[simp] theorem State.setPlay_ports (play : Play) : (s.setPlay play).ports = s.ports := by
  simp [State.setPlay, State.followDrive_eq]
@[simp] theorem State.setPlay_pointer (play : Play) : (s.setPlay play).pointer = s.pointer := by
  simp [State.setPlay, State.followDrive_eq]
@[simp] theorem State.setPlay_params (play : Play) : (s.setPlay play).params = s.params := by
  simp [State.setPlay, State.followDrive_eq]
@[simp] theorem State.setPlay_clkin (play : Play) : (s.setPlay play).clkin = s.clkin := by
  simp [State.setPlay, State.followDrive_eq]
@[simp] theorem State.setPlay_inReset (play : Play) : (s.setPlay play).inReset = s.inReset := by
  simp [State.setPlay, State.followDrive_eq]
@[simp] theorem State.setPlay_pending (play : Play) : (s.setPlay play).pending = s.pending := by
  simp [State.setPlay, State.followDrive_eq]
@[simp] theorem State.setLine_slots (line : Line) : (s.setLine line).slots = s.slots := by
  simp [State.setLine, State.followDrive_eq]
@[simp] theorem State.setLine_arrival (line : Line) : (s.setLine line).arrival = s.arrival := by
  simp [State.setLine, State.followDrive_eq]
@[simp] theorem State.setLine_mute (line : Line) : (s.setLine line).mute = s.mute := by
  simp [State.setLine, State.followDrive_eq]
@[simp] theorem State.setLine_play (line : Line) : (s.setLine line).play = s.play := by
  simp [State.setLine, State.followDrive_eq]
@[simp] theorem State.setLine_store (line : Line) : (s.setLine line).store = s.store := by
  simp [State.setLine, State.followDrive_eq]
@[simp] theorem State.setLine_directory (line : Line) : (s.setLine line).directory = s.directory := by
  simp [State.setLine, State.followDrive_eq]
@[simp] theorem State.setLine_free (line : Line) : (s.setLine line).free = s.free := by
  simp [State.setLine, State.followDrive_eq]
@[simp] theorem State.setLine_panel (line : Line) : (s.setLine line).panel = s.panel := by
  simp [State.setLine, State.followDrive_eq]
@[simp] theorem State.setLine_lampTest (line : Line) : (s.setLine line).lampTest = s.lampTest := by
  simp [State.setLine, State.followDrive_eq]
@[simp] theorem State.setLine_flashPhase (line : Line) : (s.setLine line).flashPhase = s.flashPhase := by
  simp [State.setLine, State.followDrive_eq]
@[simp] theorem State.setLine_substituteRole (line : Line) : (s.setLine line).substituteRole = s.substituteRole := by
  simp [State.setLine, State.followDrive_eq]
@[simp] theorem State.setLine_drive (line : Line) : (s.setLine line).drive = wantedDrive s.play line := by
  simp [State.setLine, State.followDrive_eq]
@[simp] theorem State.setLine_driveMs (line : Line) : (s.setLine line).driveMs = if wantedDrive s.play line = s.drive then s.driveMs else 0 := by
  simp [State.setLine, State.followDrive_eq]
@[simp] theorem State.setLine_line (line : Line) : (s.setLine line).line = line := by
  simp [State.setLine, State.followDrive_eq]
@[simp] theorem State.setLine_lineTimer (line : Line) : (s.setLine line).lineTimer = s.lineTimer := by
  simp [State.setLine, State.followDrive_eq]
@[simp] theorem State.setLine_ports (line : Line) : (s.setLine line).ports = s.ports := by
  simp [State.setLine, State.followDrive_eq]
@[simp] theorem State.setLine_pointer (line : Line) : (s.setLine line).pointer = s.pointer := by
  simp [State.setLine, State.followDrive_eq]
@[simp] theorem State.setLine_params (line : Line) : (s.setLine line).params = s.params := by
  simp [State.setLine, State.followDrive_eq]
@[simp] theorem State.setLine_clkin (line : Line) : (s.setLine line).clkin = s.clkin := by
  simp [State.setLine, State.followDrive_eq]
@[simp] theorem State.setLine_inReset (line : Line) : (s.setLine line).inReset = s.inReset := by
  simp [State.setLine, State.followDrive_eq]
@[simp] theorem State.setLine_pending (line : Line) : (s.setLine line).pending = s.pending := by
  simp [State.setLine, State.followDrive_eq]

/-! ### Reads after writes -/

@[simp] theorem State.slot_setSlot (i j : SlotNo) (x : Slot) :
    (s.setSlot i x).slot j = if i = j then x else s.slot j := by
  simp [State.slot, State.setSlot, Vector.getElem_set, Fin.ext_iff]

@[simp] theorem State.entry_setEntry (n m : PatNo) (e : Entry) :
    (s.setEntry n e).entry m = if n = m then e else s.entry m := by
  simp [State.entry, State.setEntry, Vector.getElem_set, Fin.ext_iff]

@[simp] theorem State.port_setPort (p q : Port) (x : PortState) :
    (s.setPort p x).port q = if p = q then x else s.port q := by
  simp [State.port, State.setPort, Vector.getElem_set, Fin.ext_iff]

@[simp] theorem State.slot_setRecord (i j : SlotNo) (r : Record) :
    (s.setRecord i r).slot j = if i = j then { s.slot i with record := some r } else s.slot j := by
  simp [State.setRecord]

@[simp] theorem State.record_setRecord (i j : SlotNo) (r : Record) :
    (s.setRecord i r).record j = if i = j then some r else s.record j := by
  unfold State.record; simp; split <;> simp_all

@[simp] theorem State.port_post (e : Event) (p : Port) : (s.post e).port p = (s.port p).offer p e := by
  simp [State.port, State.post]

@[simp] theorem State.port_postReply (p q : Port) (r : Reply) :
    (s.postReply p r).port q =
      if p = q then { s.port p with replies := (s.port p).replies ++ [r] } else s.port q := by
  simp [State.postReply]

@[simp] theorem State.entry_setSlot (i : SlotNo) (x : Slot) (n' : PatNo) : (s.setSlot i x).entry n' = s.entry n' := rfl
@[simp] theorem State.port_setSlot (i : SlotNo) (x : Slot) (p' : Port) : (s.setSlot i x).port p' = s.port p' := rfl
@[simp] theorem State.entry_setRecord (i : SlotNo) (r : Record) (n' : PatNo) : (s.setRecord i r).entry n' = s.entry n' := rfl
@[simp] theorem State.port_setRecord (i : SlotNo) (r : Record) (p' : Port) : (s.setRecord i r).port p' = s.port p' := rfl
@[simp] theorem State.slot_setEntry (n : PatNo) (e : Entry) (i' : SlotNo) : (s.setEntry n e).slot i' = s.slot i' := rfl
@[simp] theorem State.record_setEntry (n : PatNo) (e : Entry) (i' : SlotNo) : (s.setEntry n e).record i' = s.record i' := rfl
@[simp] theorem State.port_setEntry (n : PatNo) (e : Entry) (p' : Port) : (s.setEntry n e).port p' = s.port p' := rfl
@[simp] theorem State.slot_setPort (p : Port) (x : PortState) (i' : SlotNo) : (s.setPort p x).slot i' = s.slot i' := rfl
@[simp] theorem State.record_setPort (p : Port) (x : PortState) (i' : SlotNo) : (s.setPort p x).record i' = s.record i' := rfl
@[simp] theorem State.entry_setPort (p : Port) (x : PortState) (n' : PatNo) : (s.setPort p x).entry n' = s.entry n' := rfl
@[simp] theorem State.slot_post (e : Event) (i' : SlotNo) : (s.post e).slot i' = s.slot i' := rfl
@[simp] theorem State.record_post (e : Event) (i' : SlotNo) : (s.post e).record i' = s.record i' := rfl
@[simp] theorem State.entry_post (e : Event) (n' : PatNo) : (s.post e).entry n' = s.entry n' := rfl
@[simp] theorem State.slot_postReply (p : Port) (r : Reply) (i' : SlotNo) : (s.postReply p r).slot i' = s.slot i' := rfl
@[simp] theorem State.record_postReply (p : Port) (r : Reply) (i' : SlotNo) : (s.postReply p r).record i' = s.record i' := rfl
@[simp] theorem State.entry_postReply (p : Port) (r : Reply) (n' : PatNo) : (s.postReply p r).entry n' = s.entry n' := rfl
@[simp] theorem State.slot_setPlay (play : Play) (i' : SlotNo) : (s.setPlay play).slot i' = s.slot i' := by simp [State.slot]
@[simp] theorem State.record_setPlay (play : Play) (i' : SlotNo) : (s.setPlay play).record i' = s.record i' := by simp [State.record, State.slot]
@[simp] theorem State.entry_setPlay (play : Play) (n' : PatNo) : (s.setPlay play).entry n' = s.entry n' := by simp [State.entry]
@[simp] theorem State.port_setPlay (play : Play) (p' : Port) : (s.setPlay play).port p' = s.port p' := by simp [State.port]
@[simp] theorem State.slot_setLine (line : Line) (i' : SlotNo) : (s.setLine line).slot i' = s.slot i' := by simp [State.slot]
@[simp] theorem State.record_setLine (line : Line) (i' : SlotNo) : (s.setLine line).record i' = s.record i' := by simp [State.record, State.slot]
@[simp] theorem State.entry_setLine (line : Line) (n' : PatNo) : (s.setLine line).entry n' = s.entry n' := by simp [State.entry]
@[simp] theorem State.port_setLine (line : Line) (p' : Port) : (s.setLine line).port p' = s.port p' := by simp [State.port]
@[simp] theorem State.slot_setWord (i : Nat) (w : StepWord) (i' : SlotNo) : (s.setWord i w).slot i' = s.slot i' := by simp [State.slot]
@[simp] theorem State.record_setWord (i : Nat) (w : StepWord) (i' : SlotNo) : (s.setWord i w).record i' = s.record i' := by simp [State.record, State.slot]
@[simp] theorem State.entry_setWord (i : Nat) (w : StepWord) (n' : PatNo) : (s.setWord i w).entry n' = s.entry n' := by simp [State.entry]
@[simp] theorem State.port_setWord (i : Nat) (w : StepWord) (p' : Port) : (s.setWord i w).port p' = s.port p' := by simp [State.port]

/-! ### Every record changed at once -/

@[simp] theorem State.slot_mapRecords (change : Record → Record) (i : SlotNo) :
    (s.mapRecords change).slot i = { s.slot i with record := (s.record i).map change } := by
  simp [State.slot, State.mapRecords, State.record]

@[simp] theorem State.record_mapRecords (change : Record → Record) (i : SlotNo) :
    (s.mapRecords change).record i = (s.record i).map change := by
  rw [State.record, State.slot_mapRecords]

end Sys2Proof.Machine
end

