-- ==== Sys2Proof/Laws/Executor.lean ====
section
/-! SUPPORT. The Request Executor's laws: whose turn it is, and what a taking answers (R135 to R141). -/

namespace Sys2Proof.Machine

/-- Where it is port p's turn, p is the port served next (R135). -/
theorem State.nextPort_of_turn {s : State} {p : Port} {r : Request} {rest : List Request} (h : s.Turn p r rest) :
    s.nextPort = some p := by
  obtain ⟨hp, hq⟩ := h
  have e1 := hq (s.pointer + 1)
  have e2 := hq (s.pointer + 2)
  have e3 := hq (s.pointer + 3)
  unfold State.nextPort
  generalize s.pointer = o at *
  have key : ∀ o p : Port, p = o + 1 ∨ p = o + 2 ∨ p = o + 3 ∨ p = o := by decide
  have dist : ∀ o : Port, turnDistance o (o + 1) = 0 ∧ turnDistance o (o + 2) = 1 ∧ turnDistance o (o + 3) = 2 ∧
    turnDistance o o = 3 := by decide
  obtain ⟨d1, d2, d3, d4⟩ := dist o
  rcases key o p with rfl | rfl | rfl | rfl
  · simp [hp]
  · simp [List.find?, hp, e1 (by omega)]
  · simp [List.find?, hp, e1 (by omega), e2 (by omega)]
  · simp [List.find?, hp, e1 (by omega), e2 (by omega), e3 (by omega)]

/-- What a taking does where it is port p's turn: nothing, where the request is of another kind; otherwise the request is
removed, served, and replied to (R135, R136). -/
theorem State.takeRequest_of_turn {s : State} {p : Port} {r : Request} {rest : List Request} (h : s.Turn p r rest)
    (named : Byte → Bool) (serve : Port → List Byte → State → Answer) :
    s.takeRequest named serve =
      if named r.kind then
        (serve p r.payload (s.removeRequest p)).state.postReply p
          { seq := r.seq, status := (serve p r.payload (s.removeRequest p)).status,
            payload := (serve p r.payload (s.removeRequest p)).payload }
      else s := by
  simp only [State.takeRequest, State.nextPort_of_turn h, h.1]

/-- A taking either does nothing or takes the request whose turn it is. -/
theorem State.takeRequest_cases (s : State) (named : Byte → Bool) (serve : Port → List Byte → State → Answer) :
    s.takeRequest named serve = s ∨
      ∃ p r rest, s.nextPort = some p ∧ (s.port p).inbound = r :: rest ∧ named r.kind = true ∧
        s.takeRequest named serve =
          (serve p r.payload (s.removeRequest p)).state.postReply p
            { seq := r.seq, status := (serve p r.payload (s.removeRequest p)).status,
              payload := (serve p r.payload (s.removeRequest p)).payload } := by
  unfold State.takeRequest
  split
  · exact .inl rfl
  · rename_i p hp
    split
    · exact .inl rfl
    · rename_i r rest hr
      split
      · exact .inr ⟨p, r, rest, hp, hr, ‹_›, rfl⟩
      · exact .inl rfl

/-- A gate that is passed. -/
theorem State.gate_pass (s : State) (p : Port) (k : Kind) (payload : List Byte) (right : Rights → Bool) (go : Answer)
    (hl : lengthOk k payload = true) (ho : (s.port p).session = .opened) (hr : right (s.rights p) = true) :
    s.gate p k payload right go = go := by
  simp [State.gate, hl, ho, hr]

/-! ### Reads of the state a taking serves -/

@[simp] theorem State.removeRequest_port (s : State) (p q : Port) :
    (s.removeRequest p).port q =
      if p = q then { s.port p with inbound := (s.port p).inbound.tail } else s.port q := by
  show (s.setPort p _).port q = _
  simp

@[simp] theorem State.removeRequest_record (s : State) (p : Port) (i : SlotNo) :
    (s.removeRequest p).record i = s.record i := rfl

@[simp] theorem State.removeRequest_slot (s : State) (p : Port) (i : SlotNo) :
    (s.removeRequest p).slot i = s.slot i := rfl

@[simp] theorem State.removeRequest_entry (s : State) (p : Port) (n : PatNo) :
    (s.removeRequest p).entry n = s.entry n := rfl

@[simp] theorem State.removeRequest_params (s : State) (p : Port) : (s.removeRequest p).params = s.params := rfl

@[simp] theorem State.removeRequest_rights (s : State) (p q : Port) : (s.removeRequest p).rights q = s.rights q := rfl

@[simp] theorem State.removeRequest_arrival (s : State) (p : Port) : (s.removeRequest p).arrival = s.arrival := rfl

@[simp] theorem State.removeRequest_play (s : State) (p : Port) : (s.removeRequest p).play = s.play := rfl

@[simp] theorem State.removeRequest_line (s : State) (p : Port) : (s.removeRequest p).line = s.line := rfl

@[simp] theorem State.removeRequest_mute (s : State) (p : Port) : (s.removeRequest p).mute = s.mute := rfl

@[simp] theorem State.removeRequest_free (s : State) (p : Port) : (s.removeRequest p).free = s.free := rfl

@[simp] theorem State.removeRequest_store (s : State) (p : Port) : (s.removeRequest p).store = s.store := rfl

@[simp] theorem State.removeRequest_drive (s : State) (p : Port) : (s.removeRequest p).drive = s.drive := rfl

@[simp] theorem State.removeRequest_pointer (s : State) (p : Port) : (s.removeRequest p).pointer = p := rfl

/-- The session of a port is the same after a request is removed. -/
theorem State.removeRequest_session (s : State) (p q : Port) :
    ((s.removeRequest p).port q).session = (s.port q).session := by
  rw [State.removeRequest_port]; split <;> simp_all

/-- What a served request of the kind taken comes to where it is its turn, its length is right and its port is OPEN with
the right: the service's own answer, replied to (R136, R140). -/
theorem State.takeRequest_served {s : State} {k : Kind} {p : Port} {r : Request} {rest : List Request}
    (h : s.Taking k p r rest) (right : Rights → Bool) (hr : right (s.rights p) = true)
    (go : Port → List Byte → State → Answer)
    (serve : Port → List Byte → State → Answer)
    (hs : ∀ p payload t, serve p payload t = t.gate p k payload right (go p payload t)) :
    s.takeRequest (isKind k) serve =
      (go p r.payload (s.removeRequest p)).state.postReply p
        { seq := r.seq, status := (go p r.payload (s.removeRequest p)).status,
          payload := (go p r.payload (s.removeRequest p)).payload } := by
  obtain ⟨ht, hk, hl, ho⟩ := h
  rw [State.takeRequest_of_turn ht, if_pos (by simp [isKind, hk])]
  have : serve p r.payload (s.removeRequest p) = go p r.payload (s.removeRequest p) := by
    rw [hs]
    exact State.gate_pass _ _ _ _ _ _ hl (by rw [State.removeRequest_session]; exact ho) hr
  rw [this]

end Sys2Proof.Machine
end

