-- ==== Sys2Proof/Laws/Ops.lean ====
section
/-! SUPPORT. What each shared operation on one block comes to, said once: the changes of a record, the internal raises
and returns, reference counts, freed extents, and posting to an event queue. -/

namespace Sys2Proof.Machine

/-! ### Handles and references -/

@[simp] theorem State.handleOf_setRecord (s : State) (i j : SlotNo) (r : Record) :
    (s.setRecord i r).handleOf j = s.handleOf j := by
  simp only [State.handleOf, State.slot_setRecord]; split <;> simp_all

theorem State.refTo_eq (s : State) (i : SlotNo) (r : Record) : s.refTo i r = s.about i r := rfl

theorem freshRecord_eq (raiser : Raiser) (f : RaiseFields) : freshRecord raiser f = f.asRecord raiser := rfl

@[simp] theorem RaiseFields.asRecord_origin (f : RaiseFields) (raiser : Raiser) :
    (f.asRecord raiser).origin = raiser.origin := rfl

/-- A record event posted where the slot's handle is known. -/
theorem State.postRecord_eq (t : State) (kind : RecordKind) (i : SlotNo) (r : Record) (source : Source) (x : Handle)
    (h : t.handleOf i = x) :
    t.postRecord kind i r source =
      t.post (.record kind { handle := x, origin := r.origin, tag := r.tag, priority := r.current } source) := by
  subst h; rfl

/-! ### Changes of an alert record (R5, R7, R9, R10, R12, R21, R22) -/

/-- All that creating a record does (R5, R21). -/
theorem State.createRecord_eq (s : State) (i : SlotNo) (raiser : Raiser) (f : RaiseFields) (source : Source) :
    s.createRecord i raiser f source =
      State.post
        { s with
          slots := s.slots.set i { s.slot i with record := some (f.asRecord raiser) }
          arrival := s.arrival ++ [i]
          directory := s.directory.set f.pattern { s.entry f.pattern with refs := (s.entry f.pattern).refs + 1 } }
        (.record .raised { handle := s.handleOf i, origin := raiser.origin, tag := f.tag, priority := f.base } source) :=
  State.postRecord_eq _ _ i (freshRecord raiser f) source (s.handleOf i)
    (State.handleOf_setRecord s i i (freshRecord raiser f))

/-- All that a re-alert does (R7, R21). -/
theorem State.realertRecord_eq (s : State) (i : SlotNo) (old : Record) (f : RaiseFields) (source : Source) :
    s.realertRecord i old f source =
      State.post
        { s with
          slots := s.slots.set i { s.slot i with record := some (f.asRecord old.raiser) }
          arrival := s.arrival.erase i ++ [i]
          directory :=
            if f.pattern = old.pattern then s.directory
            else ((s.dropRef old.pattern).takeRef f.pattern).directory }
        (.record .realerted
          { handle := s.handleOf i, origin := old.origin, tag := f.tag, priority := f.base } source) := by
  unfold State.realertRecord
  dsimp only
  by_cases hp : f.pattern = old.pattern
  · rw [if_pos hp, if_pos hp]
    exact State.postRecord_eq _ _ i (freshRecord old.raiser f) source (s.handleOf i)
      (State.handleOf_setRecord s i i (freshRecord old.raiser f))
  · rw [if_neg hp, if_neg hp]
    exact State.postRecord_eq _ _ i (freshRecord old.raiser f) source (s.handleOf i)
      (State.handleOf_setRecord s i i (freshRecord old.raiser f))

/-- All that freeing a record does (R12). -/
theorem State.freeRecord_eq (s : State) (i : SlotNo) (r : Record) (source : Source) (h : s.record i = some r) :
    s.freeRecord i source =
      { s.post (.record .freed (s.about i r) source) with
        arrival := s.arrival.erase i
        directory := s.directory.set r.pattern { s.entry r.pattern with refs := (s.entry r.pattern).refs - 1 }
        slots := s.slots.set i { generation := (s.slot i).generation + 1, record := none } } := by
  simp only [State.freeRecord, h]
  rfl

/-- Freeing a FREE slot does nothing. -/
theorem State.freeRecord_free (s : State) (i : SlotNo) (source : Source) (h : s.record i = none) :
    s.freeRecord i source = s := by simp only [State.freeRecord, h]

/-- All that making a record RETURNED does (R9, R22, R24). -/
theorem State.returnRecord_eq (s : State) (i : SlotNo) (r : Record) (source : Source) :
    s.returnRecord i r source =
      State.post (s.setRecord i { r with state := .returned, deadline := none })
        (.record .returned (s.about i r) source) :=
  State.postRecord_eq _ _ i _ source (s.handleOf i) (State.handleOf_setRecord s i i _)

/-- What an acknowledgement does, by the state of the record (R10). -/
theorem State.acknowledge_eq (s : State) (i : SlotNo) (r : Record) (who : AckParty) (h : s.record i = some r) :
    s.acknowledge i who =
      match r.state with
      | .alerting =>
        State.post (s.setRecord i { r with state := .acknowledged who, deadline := none, muted := false })
          (.record .acked (s.about i r) who.source)
      | .returned => s.freeRecord i who.source
      | .acknowledged _ => s := by
  simp only [State.acknowledge, h]
  cases r.state with
  | alerting => exact State.postRecord_eq _ _ i _ who.source (s.handleOf i) (State.handleOf_setRecord s i i _)
  | returned => rfl
  | acknowledged _ => rfl

/-- An internal raise, case by case (R21). -/
theorem State.internalRaise_cases (s : State) (i : SlotNo) (f : RaiseFields) :
    (s.record i = none ∧ s.internalRaise i f = (s.createRecord i .internal f .internal, true)) ∨
    (∃ r, s.record i = some r ∧ r.state = .alerting ∧ s.internalRaise i f = (s, false)) ∨
    (∃ r, s.record i = some r ∧ r.state ≠ .alerting ∧
      s.internalRaise i f = (s.realertRecord i r f .internal, true)) := by
  unfold State.internalRaise
  cases h : s.record i with
  | none => exact .inl ⟨rfl, rfl⟩
  | some r =>
    by_cases hr : r.state = .alerting
    · exact .inr (.inl ⟨r, rfl, hr, by simp [Record.isAlerting, hr]⟩)
    · exact .inr (.inr ⟨r, rfl, hr, by simp [Record.isAlerting, hr]⟩)

/-- An internal return, case by case (R22). -/
theorem State.internalReturn_cases (s : State) (i : SlotNo) :
    (s.record i = none ∧ s.internalReturn i = (s, false)) ∨
    (∃ r, s.record i = some r ∧ r.state = .alerting ∧
      s.internalReturn i = (s.returnRecord i r .internal, true)) ∨
    (∃ r who, s.record i = some r ∧ r.state = .acknowledged who ∧
      s.internalReturn i = (s.freeRecord i .internal, true)) ∨
    (∃ r, s.record i = some r ∧ r.state = .returned ∧ s.internalReturn i = (s, false)) := by
  unfold State.internalReturn
  cases h : s.record i with
  | none => exact .inl ⟨rfl, rfl⟩
  | some r =>
    cases hr : r.state with
    | alerting => exact .inr (.inl ⟨r, rfl, hr, by simp [hr]⟩)
    | acknowledged who => exact .inr (.inr (.inl ⟨r, who, rfl, hr, by simp [hr]⟩))
    | returned => exact .inr (.inr (.inr ⟨r, rfl, hr, by simp [hr]⟩))

/-! ### Reference counts (R83) -/

theorem State.entry_takeRef (s : State) (n m : PatNo) :
    (s.takeRef n).entry m = if n = m then { s.entry n with refs := (s.entry n).refs + 1 } else s.entry m := by
  simp [State.takeRef]

theorem State.entry_dropRef (s : State) (n m : PatNo) :
    (s.dropRef n).entry m = if n = m then { s.entry n with refs := (s.entry n).refs - 1 } else s.entry m := by
  simp [State.dropRef]

/-! ### Event queues (R149, R151) -/

/-- What an admitted event does to an event queue (R151). -/
theorem enqueueEvent_eq (queue : List Event) (e : Event) :
    enqueueEvent queue e =
      if queue.any Event.isOverrun then queue.map Event.countLost
      else if queue.length < 15 then queue ++ [e]
      else queue ++ [.overrun 1] := rfl

/-- An offer changes nothing of a port but its event queue. -/
theorem PortState.offer_eq (x : PortState) (p : Port) (e : Event) :
    x.offer p e =
      { x with events := if x.offered p e && x.mask.admits (e.classFor p) then enqueueEvent x.events e else x.events } := by
  unfold PortState.offer; split <;> simp_all

/-! ### The Free Extent List (R74, R75) -/

/-- First fit takes the first extent that is long enough (R74). -/
theorem firstFit_of_append (n : Nat) (before : List Extent) (x : Extent) (after : List Extent)
    (hb : ∀ y ∈ before, y.length < n) (hx : n ≤ x.length) :
    firstFit n (before ++ x :: after) =
      some (x.start,
        before ++ (if x.length = n then after else { start := x.start + n, length := x.length - n } :: after)) := by
  induction before with
  | nil =>
    simp only [List.nil_append, firstFit]
    by_cases h : n < x.length
    · rw [if_pos h, if_neg (by omega)]
    · rw [if_neg h, if_pos (by omega), if_pos (by omega)]
  | cons y rest ih =>
    have hy := hb y (by simp)
    simp only [List.cons_append, firstFit]
    rw [if_neg (by omega), if_neg (by omega), ih (fun z hz => hb z (by simp [hz]))]
    rfl

/-- First fit finds nothing exactly where no extent is long enough (R74). -/
theorem firstFit_none (n : Nat) (free : List Extent) : firstFit n free = none ↔ ∀ x ∈ free, x.length < n := by
  induction free with
  | nil => simp [firstFit]
  | cons x rest ih =>
    simp only [firstFit, List.mem_cons, forall_eq_or_imp]
    split
    · simp; omega
    · split
      · simp; omega
      · simp only [Option.map_eq_none_iff, ih]
        constructor
        · intro h; exact ⟨by omega, h⟩
        · exact fun h => h.2

/-- Every index is free after an extent enters exactly when it was before or lies in the extent (R75), where the extent
meets no free one. -/
theorem insertExtent_length (e : Extent) (free : List Extent) :
    ((insertExtent e free).map Extent.length).sum = e.length + (free.map Extent.length).sum := by
  induction free generalizing e with
  | nil => simp [insertExtent]
  | cons x rest ih =>
    unfold insertExtent
    split
    · simp only [List.map_cons, List.sum_cons, ih]; omega
    · split
      · rw [ih]; simp only [List.map_cons, List.sum_cons]; omega
      · split
        · simp only [List.map_cons, List.sum_cons]; omega
        · simp only [List.map_cons, List.sum_cons]

end Sys2Proof.Machine
end

