-- ==== Sys2Proof/Laws/Sounding.lean ====
section
/-! SUPPORT. The Sounding Order's laws: what it depends on, so that the operations that leave the records alone leave it
alone, and what holds of the list that ranks the records (R28, R29). -/

namespace Sys2Proof.Machine

/-! ### What the order depends on -/

theorem State.slot_congr {s t : State} (h : s.slots = t.slots) (i : SlotNo) : s.slot i = t.slot i := by
  simp only [State.slot, h]

theorem State.record_congr {s t : State} (h : s.slots = t.slots) (i : SlotNo) : s.record i = t.record i := by
  simp only [State.record, State.slot_congr h]

theorem State.eligible_congr {s t : State} (h : s.slots = t.slots) : s.eligible = t.eligible := by
  funext i; simp only [State.eligible, State.record_congr h]

theorem State.priority_congr {s t : State} (h : s.slots = t.slots) : s.priority = t.priority := by
  funext i; simp only [State.priority, State.record_congr h]

/-- The Sounding Order depends on the slots and the Arrival List alone (R29). -/
theorem State.order_congr {s t : State} (h : s.slots = t.slots) (ha : s.arrival = t.arrival) : s.order = t.order := by
  simp only [State.order, State.eligible_congr h, State.priority_congr h, ha]

theorem State.ownerStands_congr {s t : State} (h : s.slots = t.slots) (owner : Handle) :
    s.ownerStands owner = t.ownerStands owner := by
  simp only [State.ownerStands, State.slot_congr h, State.eligible_congr h]

theorem State.headAbove_congr {s t : State} (h : s.slots = t.slots) (ha : s.arrival = t.arrival) (owner : Handle) :
    s.headAbove owner = t.headAbove owner := by
  simp only [State.headAbove, State.head, State.order_congr h ha, State.priority_congr h]

theorem State.headUrgent_congr {s t : State} (h : s.slots = t.slots) (ha : s.arrival = t.arrival)
    (hp : s.params = t.params) : s.headUrgent = t.headUrgent := by
  simp only [State.headUrgent, State.head, State.order_congr h ha, State.priority_congr h, State.isUrgent, hp]

@[simp] theorem State.order_setPlay (s : State) (play : Play) : (s.setPlay play).order = s.order :=
  State.order_congr (by simp) (by simp)

@[simp] theorem State.order_setLine (s : State) (line : Line) : (s.setLine line).order = s.order :=
  State.order_congr (by simp) (by simp)

@[simp] theorem State.order_post (s : State) (e : Event) : (s.post e).order = s.order := State.order_congr rfl rfl

@[simp] theorem State.order_postReply (s : State) (p : Port) (r : Reply) : (s.postReply p r).order = s.order :=
  State.order_congr rfl rfl

@[simp] theorem State.order_setEntry (s : State) (n : PatNo) (e : Entry) : (s.setEntry n e).order = s.order :=
  State.order_congr rfl rfl

@[simp] theorem State.order_setPort (s : State) (p : Port) (x : PortState) : (s.setPort p x).order = s.order :=
  State.order_congr rfl rfl

@[simp] theorem State.priority_setPlay (s : State) (play : Play) : (s.setPlay play).priority = s.priority :=
  State.priority_congr (by simp)

@[simp] theorem State.priority_setLine (s : State) (line : Line) : (s.setLine line).priority = s.priority :=
  State.priority_congr (by simp)

@[simp] theorem State.priority_post (s : State) (e : Event) : (s.post e).priority = s.priority :=
  State.priority_congr rfl

@[simp] theorem State.priority_setEntry (s : State) (n : PatNo) (e : Entry) : (s.setEntry n e).priority = s.priority :=
  State.priority_congr rfl

/-! ### The conditions of a decision (R36 to R43) -/

theorem State.headUrgent_iff (s : State) :
    s.headUrgent = true ↔ ∃ i, s.order.head? = some i ∧ s.params.urgent ≤ s.priority i := by
  simp [State.headUrgent, State.head, State.isUrgent, Option.any_eq_true]

theorem State.headAbove_iff (s : State) (owner : Handle) :
    s.headAbove owner = true ↔
      ∃ i, s.order.head? = some i ∧ i ≠ owner.slot ∧ s.priority owner.slot < s.priority i := by
  unfold State.headAbove State.head
  cases s.order.head? <;> simp

/-- An eligible record is one that is ALERTING, not muted and sound due (R28). -/
theorem State.eligible_iff (s : State) (i : SlotNo) :
    s.eligible i = true ↔
      ∃ r, s.record i = some r ∧ r.state = .alerting ∧ r.muted = false ∧ r.soundDue = true := by
  simp [State.eligible, Option.any_eq_true, Record.eligible, Record.isAlerting, and_assoc]

/-! ### The ranked list -/

/-- A slot joins the ranked list and no other leaves it. -/
theorem mem_insertRanked (prio : SlotNo → Nat) (i j : SlotNo) (l : List SlotNo) :
    j ∈ insertRanked prio i l ↔ j = i ∨ j ∈ l := by
  induction l with
  | nil => simp [insertRanked]
  | cons k rest ih =>
    unfold insertRanked
    split
    · simp only [List.mem_cons, ih]; tauto
    · simp only [List.mem_cons]

theorem nodup_insertRanked (prio : SlotNo → Nat) (i : SlotNo) (l : List SlotNo) (h : l.Nodup) (hi : i ∉ l) :
    (insertRanked prio i l).Nodup := by
  induction l with
  | nil => simp [insertRanked]
  | cons k rest ih =>
    rw [List.nodup_cons] at h
    rw [List.mem_cons, not_or] at hi
    unfold insertRanked
    split
    · rw [List.nodup_cons, mem_insertRanked]
      exact ⟨fun hk => hk.elim (fun e => hi.1 e.symm) h.1, ih h.2 hi.2⟩
    · rw [List.nodup_cons, List.nodup_cons, List.mem_cons, not_or]
      exact ⟨hi, h⟩

/-- A slot inserted after every slot that ranks with or above it keeps a ranked list ranked: of each pair, the first has
the higher priority, or the same and stood earlier. -/
theorem pairwise_insertRanked (prio : SlotNo → Nat) (before : SlotNo → SlotNo → Prop) (i : SlotNo) (l : List SlotNo)
    (h : l.Pairwise (fun j k => prio k < prio j ∨ (prio j = prio k ∧ before j k))) (hi : ∀ j ∈ l, before j i) :
    (insertRanked prio i l).Pairwise (fun j k => prio k < prio j ∨ (prio j = prio k ∧ before j k)) := by
  induction l with
  | nil => simp [insertRanked]
  | cons k rest ih =>
    rw [List.pairwise_cons] at h
    unfold insertRanked
    split
    · rename_i hle
      rw [List.pairwise_cons]
      refine ⟨fun m hm => ?_, ih h.2 (fun j hj => hi j (by simp [hj]))⟩
      rcases (mem_insertRanked prio i m rest).mp hm with rfl | hm
      · rcases Nat.lt_or_eq_of_le hle with hlt | heq
        · exact .inl hlt
        · exact .inr ⟨heq.symm, hi k (by simp)⟩
      · exact h.1 m hm
    · rename_i hlt
      rw [List.pairwise_cons]
      refine ⟨fun m hm => .inl ?_, List.pairwise_cons.mpr h⟩
      rcases List.mem_cons.mp hm with rfl | hm
      · omega
      · rcases h.1 m hm with hk | ⟨hk, -⟩ <;> omega

end Sys2Proof.Machine
end

