-- ==== Sys2Proof/Laws/Store.lean ====
section
/-! SUPPORT. The laws of the Step Store: a read after a write, and the canonical form that every write keeps. -/

namespace Sys2Proof.Machine

/-- A word of a store in canonical form reads as what was last written to it (R70). -/
theorem Store.read_write_same (m : Store) (i : Nat) (w : StepWord) (h : m.wf = true) :
    (m.write i w).read i = w := by
  induction m with
  | nil => unfold Store.write; split <;> simp_all [Store.read]
  | cons c rest ih =>
    obtain ⟨a, v⟩ := c
    simp only [Store.wf, Bool.and_eq_true, decide_eq_true_eq, List.all_eq_true] at h
    obtain ⟨⟨⟨-, -⟩, hlt⟩, hrest⟩ := h
    have unlisted : ∀ (l : Store), (∀ c ∈ l, i < c.1) → l.read i = Store.unlisted := by
      intro l hl
      induction l with
      | nil => rfl
      | cons d l ihl =>
        have := hl d (by simp)
        simp only [Store.read]
        rw [if_neg (by omega)]
        exact ihl (fun c hc => hl c (by simp [hc]))
    unfold Store.write
    split
    · split
      · subst_vars
        simp only [Store.read]
        rw [if_neg (by omega)]
        exact unlisted rest (fun c hc => by have := hlt c hc; omega)
      · simp [Store.read]
    · split
      · split
        · subst_vars
          exact unlisted rest (fun c hc => hlt c hc)
        · simp [Store.read]
      · simp only [Store.read]
        rw [if_neg (by omega)]
        exact ih hrest

/-- A write leaves every other word as it was (R70). -/
theorem Store.read_write_other (m : Store) (i j : Nat) (w : StepWord) (h : j ≠ i) :
    (m.write i w).read j = m.read j := by
  induction m with
  | nil => unfold Store.write; split <;> simp [Store.read, h]
  | cons c rest ih =>
    obtain ⟨a, v⟩ := c
    unfold Store.write
    split
    · split
      · rfl
      · simp [Store.read, h]
    · split
      · subst_vars
        split <;> simp [Store.read, h]
      · simp only [Store.read, ih]

/-- A word that does not read the same unlisted reads back after its write, whatever the store. -/
theorem Store.read_write_listed (m : Store) (i : Nat) (w : StepWord) (hw : w ≠ Store.unlisted) :
    (m.write i w).read i = w := by
  induction m with
  | nil => simp [Store.write, hw, Store.read]
  | cons c rest ih =>
    obtain ⟨a, v⟩ := c
    unfold Store.write
    split
    · simp [Store.read]
    · split
      · simp [Store.read]
      · simp only [Store.read]
        rw [if_neg (by omega)]
        exact ih

/-- The indices of the store after a write: the one written, and those before. -/
theorem Store.mem_write (m : Store) (i : Nat) (w : StepWord) (c : Nat × StepWord) (h : c ∈ m.write i w) :
    c = (i, w) ∨ c ∈ m := by
  induction m with
  | nil => unfold Store.write at h; split at h <;> simp_all
  | cons d rest ih =>
    obtain ⟨a, v⟩ := d
    unfold Store.write at h
    split at h
    · split at h <;> simp_all
    · split at h
      · split at h
        · simp_all
        · simp only [List.mem_cons] at h ⊢; tauto
      · simp only [List.mem_cons] at h ⊢
        rcases h with h | h
        · tauto
        · have := ih h; tauto

/-- A write keeps the canonical form (R70). -/
theorem Store.wf_write (m : Store) (i : Nat) (w : StepWord) (hi : i < Config.stepWords) (h : m.wf = true) :
    (m.write i w).wf = true := by
  induction m with
  | nil => unfold Store.write; split <;> simp_all [Store.wf]
  | cons c rest ih =>
    obtain ⟨a, v⟩ := c
    have h' := h
    simp only [Store.wf, Bool.and_eq_true, decide_eq_true_eq, List.all_eq_true] at h
    obtain ⟨⟨⟨ha, hv⟩, hlt⟩, hrest⟩ := h
    unfold Store.write
    split
    · split
      · exact h'
      · rename_i hia hw
        simp only [Store.wf, Bool.and_eq_true, decide_eq_true_eq, List.all_eq_true, List.mem_cons]
        refine ⟨⟨⟨hi, hw⟩, ?_⟩, ⟨⟨ha, hv⟩, hlt⟩, hrest⟩
        rintro d (rfl | hd)
        · exact hia
        · have := hlt d hd; omega
    · split
      · subst_vars
        split
        · exact hrest
        · rename_i hw
          simp only [Store.wf, Bool.and_eq_true, decide_eq_true_eq, List.all_eq_true]
          exact ⟨⟨⟨hi, hw⟩, hlt⟩, hrest⟩
      · simp only [Store.wf, Bool.and_eq_true, decide_eq_true_eq, List.all_eq_true]
        refine ⟨⟨⟨ha, hv⟩, ?_⟩, ih hrest⟩
        intro d hd
        rcases Store.mem_write rest i w d hd with rfl | hd
        · show a < i; omega
        · exact hlt d hd

/-- Writing a step word keeps the canonical form, whatever the index. -/
theorem State.setWord_wf (s : State) (i : Nat) (w : StepWord) (h : s.store.wf = true) :
    (s.setWord i w).store.wf = true := by
  unfold State.setWord
  split
  · exact Store.wf_write _ _ _ ‹_› h
  · exact h

/-- A step word the library writes has good parity (R70). -/
theorem Step.word_good (st : Step) : st.word.good = true := by
  simp only [Step.word, StepWord.good, StepWord.ones, Bool.toNat_false, Nat.add_zero]
  generalize (List.range 5).countP _ + (List.range 2).countP _ + (List.range 6).countP _ = n
  rcases Nat.mod_two_eq_zero_or_one n with h | h <;> simp [h, Nat.add_mod]

/-- A spoiled word has bad parity, and keeps its step (R70; log 3). -/
theorem StepWord.spoiled_bad (w : StepWord) : w.spoiled.good = false ∧ w.spoiled.step = w.step := by
  unfold StepWord.spoiled
  split
  · rename_i h
    refine ⟨?_, rfl⟩
    obtain ⟨st, parity⟩ := w
    simp only [StepWord.good, StepWord.ones] at h ⊢
    generalize (List.range 5).countP _ + (List.range 2).countP _ + (List.range 6).countP _ = n at h ⊢
    cases parity <;> simp at h ⊢ <;> omega
  · rename_i h
    exact ⟨by simpa using h, rfl⟩

end Sys2Proof.Machine
end

