-- ==== Sys2Proof/Tests/Slice0.lean ====
section
/-! SUPPORT. The author's own tests: each refused term of WellFormed, the data book's examples one step at a time, and for
every statement with hypotheses a witness that meets them. A comment names the source of each expected value. -/

set_option maxRecDepth 8192

namespace Sys2Proof.Tests

open Sys2Proof Sys2Proof.Machine

/-! ### Small states -/

/-- Whether the state a command leaves passes a test. -/
def leaves (answer : Result) (test : State → Bool) : Bool :=
  match answer with
  | .next t => test t
  | _ => false

/-- Port p OPEN, subscribed to every class. -/
def opened (s : State) (p : Port) : State :=
  s.setPort p { s.port p with session := .opened, keepalive := some 2000, mask := { others := true, sound := true, system := true } }

/-- The request of these tests, with sequence byte 7. -/
def asking (k : Kind) (payload : List Byte) : Request := { kind := kindCode k, seq := 7, payload := payload }

/-- Port 0 OPEN and next in turn, with one request waiting. -/
def ask (s : State) (k : Kind) (payload : List Byte) : State :=
  { s with pointer := 3, ports := s.ports.set 0 { s.port 0 with session := .opened, inbound := [asking k payload] } }

/-- The last reply that port 0 holds. -/
def reply (t : State) : Option Reply := (t.port 0).replies.getLast?

/-- The last reply is OK with this payload. -/
def ok (payload : List Byte) (t : State) : Bool := decide (reply t = some { seq := 7, status := .ok, payload := payload })

/-- The last reply has this status and this payload. -/
def refused (status : Status) (payload : List Byte) (t : State) : Bool :=
  decide (reply t = some { seq := 7, status := status, payload := payload })

/-- A tone of pattern 2. -/
def toneA : Step := { tone := 10, level := 3, units := 30 }

/-- A rest of pattern 2. -/
def restA : Step := { tone := 0, level := 0, units := 20 }

/-- User pattern 2, defined by P0: a tone of 300 ms, then a rest of 200 ms, at which it loops. -/
def layoutA : Layout := { definer := some 0, start := some 0, length := 2, loopIndex := 1, pace := 1 }

/-- A record of P0 on pattern 2, ALERTING, continuous, that escalates from 2 to 3 after 10 s. -/
def recordA : Record :=
  { raiser := .host 0 false, tag := 5, pattern := 2, base := 2, ceiling := 3, current := 2, lamps := 1, latching := false,
    mode := .continuous, interval := 10, deadline := some 10000, state := .alerting, muted := false, soundDue := true,
    introDone := false }

/-- P0 and P1 OPEN, pattern 2 READY. -/
def stocked : State :=
  opened (opened
    { State.reset with
      store := [(0, toneA.word), (1, restA.word)]
      directory := State.reset.directory.set 2 { body := .ready layoutA, refs := 0 }
      free := [{ start := 2, length := 1022 }] } 0) 1

/-- A record in a slot, at the tail of the Arrival List, counted by its pattern. -/
def put (s : State) (i : SlotNo) (r : Record) : State :=
  State.takeRef { s.setRecord i r with arrival := s.arrival ++ [i] } r.pattern

/-- The handle of slot i at generation 0. -/
def at0 (i : SlotNo) : Handle := { slot := i, generation := 0 }

/-- Record A in slot 0, sounding the first step of pattern 2 with this much time left. -/
def sounding (timeLeft : Nat) : State :=
  (put stocked 0 recordA).setPlay (.playing (at0 0) { pattern := 2, index := 0, timeLeft := timeLeft, tone := 10, level := 3 })

/-- Record A sounding the last step of pattern 2, whose time has run out. -/
def lastStep : State :=
  (put stocked 0 recordA).setPlay (.playing (at0 0) { pattern := 2, index := 1, timeLeft := 0, tone := 0, level := 0 })

/-- Pattern 2 with its second step's parity lost. -/
def spoilt (s : State) : State := s.setWord 1 restA.word.spoiled

/-- Pattern 2 DAMAGED. -/
def damaged (s : State) : State := s.setEntry 2 { s.entry 2 with body := .damaged layoutA }

/-- Pattern 2 LOADING for P0 with this many steps filled. -/
def filling (s : State) (fill : Nat) : State := s.setEntry 2 { body := .loading layoutA fill, refs := 0 }

/-- Port 0 in a transaction that has received these bytes and bits, and sends the frame from there. -/
def transacting (s : State) (frame : List Byte) (source : FrameFrom) (received : List Byte) (bits : List Bool) : State :=
  let x : Transaction := { status := 0x40, frame := frame, source := source, received := received, bits := bits }
  s.setPort 0 { s.port 0 with selectLow := true, transaction := some x }

/-- The frame of a HELLO with sequence byte 7. -/
def helloFrame : List Byte := [0x01, 7, 0] ++ [crc8 [0x01, 7, 0]]

/-! ### Well-formed commands (R1, R70) and the words of the table -/

theorem test_parity_index_refused : Instr.wellFormed (.stepWordParityLoss 1024) = false := by decide
theorem test_parity_index_accepted : Instr.wellFormed (.stepWordParityLoss 1023) = true := by decide
theorem test_slot_number_refused : Instr.wellFormed (.escalationExpiry 30) = false := by decide
theorem test_slot_number_accepted : Instr.wellFormed (.escalationExpiry 29) = true := by decide
/-- No row of the command table has bits, so no word spells a command (98_reader.md). -/
theorem test_no_word_spells_a_command : decodeTableWord 32 0x12345678 = none := by decide

/-! ### Formats (chapter 11) -/

/-- R165's example: the remainders after each byte of a NULL frame of sequence 0. -/
theorem test_crc_null_frame : crc8 [0] = 0xF3#8 ∧ crc8 [0, 0] = 0xD7#8 ∧ crc8 [0, 0, 0] = 0x2B#8 := by decide
/-- R165's frame, written out, is a NULL frame; with a wrong CRC it is a frame error (R121). -/
theorem test_null_frame_judged : judge [0, 0, 0, 0x2B] = .nullFrame ∧ judge [0, 0, 0, 0x2C] = .frameError := by decide
/-- R70: the parity bit makes the number of one bits even: tone 10, level 3, units 30 have 2, 2 and 4. -/
theorem test_parity_bit : toneA.word.parity = false ∧ restA.word.parity = false ∧
    (Step.word { tone := 1, level := 0, units := 0 }).parity = true := by decide
/-- The canonical form of the Step Store holds at reset and after a parity loss. -/
theorem test_store_form : State.reset.store.wf = true ∧ (spoilt stocked).store.wf = true := by decide
/-- R51: tone 16 at level 2 is 1800 Hz at 75 %; R105: the second half-period drives SND_B. -/
theorem test_drive_outputs : wantedDrive (.tail { pattern := 31, index := 0, timeLeft := 1, tone := 16, level := 2 })
      (.normal 0) = some { frequency := 1800, duty := 75 } ∧
    Drive.outputs { frequency := 1800, duty := 75 } 0 = (.high, .low) ∧
    Drive.outputs { frequency := 1800, duty := 75 } 300 = (.low, .high) := by decide

/-- R105: at 1800 Hz and 75 % SND_A is high for 208 microseconds of the first half-period of 277, then low. -/
theorem test_bridge_duty : Drive.outputs { frequency := 1800, duty := 75 } 208 = (.high, .low) ∧
    Drive.outputs { frequency := 1800, duty := 75 } 209 = (.low, .low) := by decide
/-- R117: after the status byte 0x40 and two bits of the next byte, SDO carries bit 5 of the frame's first byte. -/
theorem test_sdo : (transacting stocked [0x20] .reply [0] [true, true]).sdo 0 = some true ∧ stocked.sdo 0 = none ∧
    (transacting stocked [0x20] .reply [] [true]).sdo 0 = some true := by decide
/-- Tables 11.2, 11.7 and 11.8: the frames of a BAD_VALUE reply and of an OVERRUN entry, before the CRC byte. -/
theorem test_frames : (Reply.frame { seq := 7, status := .badValue, payload := [] }).take 4 = [0x01, 7, 0x05, 0] ∧
    (Event.frame (.overrun 255)).take 4 = [0x02, 0x0E, 1, 255] ∧
    (Event.frame (.patternState 27 (.port 2))).take 6 = [0x02, 0x0D, 3, 0, 27, 2] := by decide

/-! ### One step of each command -/

/-- R90: power-on empties the table and the library. -/
theorem test_power_on : leaves (exec .powerOnReset (sounding 0)) (fun t =>
    decide (t.arrival = []) && decide ((t.entry 2).body = .empty) && decide (t.play = .idle) && t.inReset) = true := by decide
/-- R91: a pin reset keeps a READY pattern with definer NONE and discards a LOADING one, whose extent merges. -/
theorem test_pin_reset_keeps_ready : leaves (exec .pinReset (sounding 0)) (fun t =>
    decide ((t.entry 2) = { body := .ready { layoutA with definer := none }, refs := 0 }) &&
      decide (t.record 0 = none)) = true := by decide
theorem test_pin_reset_discards_loading : leaves (exec .pinReset (filling stocked 1)) (fun t =>
    decide ((t.entry 2).body = .empty) && decide (t.free = [{ start := 0, length := 1024 }])) = true := by decide
/-- R138: PROF1 high and PROF0 low select profile 2; R27: a kept DAMAGED pattern raises STORE_FAULT. -/
theorem test_reset_end : leaves (exec (.resetEnd .high .low) { State.reset with inReset := true }) (fun t =>
    decide (t.params.profile = 2) && !t.inReset && decide (t.record 29 = none)) = true := by decide
theorem test_reset_end_store_fault :
    leaves (exec (.resetEnd .low .low) (damaged { State.reset with inReset := true })) (fun t =>
      decide ((t.record 29).map Record.tag = some 2) && decide (t.order = [29])) = true := by decide
/-- R162, R54: a tick lowers the step timer and the deadline by one, and none comes without CLKIN. -/
theorem test_tick : leaves (exec .tick (sounding 300)) (fun t =>
    decide (t.play.now.map Sounding.timeLeft = some 299) && decide ((t.record 0).map Record.deadline = some (some 9999)))
      = true := by decide
theorem test_clkin_stops_ticks : leaves (exec .clkinStop State.reset) (fun t =>
    leaves (exec .tick t) (fun u => decide (u.lineTimer = some 100))) = true := by decide
theorem test_clkin_resumes : leaves (exec .clkinResume { State.reset with clkin := false }) (fun t =>
    leaves (exec .tick t) (fun u => decide (u.lineTimer = some 99))) = true := by decide
/-- R70: a parity loss makes the word's parity bad; index 1024 is no word. -/
theorem test_parity_loss : leaves (exec (.stepWordParityLoss 1) stocked) (fun t =>
    !(t.word 1).good && decide ((t.word 1).step = restA)) = true := by decide
theorem test_parity_loss_faults : exec (.stepWordParityLoss 1024) State.reset = .fault .noSuchStepWord := rfl
/-- R117, R125: the status byte of an OPEN port that has nothing to send is 0x40, and the empty frame is 0x00. -/
theorem test_chip_select_fall : leaves (exec (.chipSelectFall 0) stocked) (fun t =>
    decide ((t.port 0).transaction =
      some { status := 0x40, frame := [0], source := .nothing, received := [], bits := [] })) = true := by decide
/-- R118: the eighth edge makes a byte whole, the first bit the most significant. -/
theorem test_eighth_edge : leaves (exec (.sckRisingEdge 0 .high)
      (transacting stocked [0] .nothing [] [true, false, false, false, false, false, false])) (fun t =>
    decide ((t.port 0).transaction.map Transaction.received = some [0x81])) = true := by decide
/-- R123, R125: a HELLO frame is admitted; with four requests waiting it is FULL. -/
theorem test_request_admitted : leaves (exec (.chipSelectRise 0) (transacting stocked [0] .nothing helloFrame [])) (fun t =>
    decide ((t.port 0).inbound = [asking .hello []]) && decide ((t.port 0).lastOutcome = .accepted)) = true := by decide
theorem test_request_full : leaves (exec (.chipSelectRise 0)
      (transacting (stocked.setPort 0 { stocked.port 0 with inbound := List.replicate 4 (asking .status []) })
        [0] .nothing helloFrame [])) (fun t =>
    decide ((t.port 0).inbound.length = 4) && decide ((t.port 0).lastOutcome = .full)) = true := by decide
/-- R140, step 1: kind byte 0x17 names no kind. -/
theorem test_unknown_kind : leaves (exec .unknownKind (stocked.setPort 0 { stocked.port 0 with
      inbound := [{ kind := 0x17, seq := 7, payload := [] }] })) (refused .unknownKind []) = true := by decide
/-- R127: a HELLO from a CLOSED port answers CLOSED, no flag, and rights 0x0F under profile 0. -/
theorem test_hello_opens : leaves (exec .hello (State.reset.setPort 0 { State.reset.port 0 with
      inbound := [asking .hello []] })) (fun t =>
    ok [0, 0, 0x0F] t && decide ((t.port 0).session = .opened) && decide ((t.port 0).keepalive = some 2000)) = true := by
  decide
/-- R129: from an OPEN port it closes first, so the port's record that is not latching is freed (R24). -/
theorem test_hello_restarts : leaves (exec .hello (ask (sounding 100) .hello [])) (fun t =>
    ok [1, 1, 0x0F] t && decide (t.record 0 = none)) = true := by decide
/-- R24, R88: BYE frees the record and leaves pattern 2 with definer NONE. -/
theorem test_bye : leaves (exec .bye (ask (sounding 100) .bye [])) (fun t =>
    ok [] t && decide (t.record 0 = none) && decide ((t.entry 2).body = .ready { layoutA with definer := none })) = true := by
  decide
/-- R150: mask 0x08 names no class. -/
theorem test_subscribe : leaves (exec .subscribe (ask stocked .subscribe [5, 0])) (fun t =>
    ok [5, 0] t && decide ((t.port 0).mask = { others := true, sound := false, system := true })) = true := by decide
theorem test_subscribe_bad : leaves (exec .subscribe (ask stocked .subscribe [8, 0])) (refused .badValue []) = true := by
  decide
/-- R5: the lowest FREE slot, generation 0, result NEW, and it sounds at once (R35). -/
theorem test_raise : leaves (exec .raise (ask (sounding 100) .raise [0, 6, 28, 4, 4, 1, 0, 0, 0])) (fun t =>
    ok [0, 1, 0] t && decide (t.order = [1, 0]) && decide ((t.entry 28).refs = 1)) = true := by decide
/-- R6: the same tag again is EXISTING. -/
theorem test_raise_existing : leaves (exec .raise (ask (sounding 100) .raise [0, 5, 28, 4, 4, 1, 0, 0, 0])) (ok [1, 0, 0])
    = true := by decide
/-- R9, R62: a clear frees the record and releases its tenure to a tail. -/
theorem test_clear : leaves (exec .clear (ask (sounding 100) .clear [0, 0])) (fun t =>
    ok [0] t && decide ((t.slot 0) = { generation := 1, record := none }) &&
      decide (t.play = .tail { pattern := 2, index := 0, timeLeft := 100, tone := 10, level := 3 })) = true := by decide
/-- R10, R61: an acknowledgement cuts the owner. -/
theorem test_ack : leaves (exec .ack (ask (sounding 100) .ack [0, 0])) (fun t =>
    ok [2] t && decide (t.play = .idle) && decide (t.drive = none)) = true := by decide
/-- R11: one acknowledged, none freed. -/
theorem test_ack_all : leaves (exec .ackAll (ask (sounding 100) .ackAll [])) (ok [1, 0]) = true := by decide
/-- R44, R45: the level is the owner's priority, 2; one record is muted for 300 s. -/
theorem test_silence : leaves (exec .silence (ask (sounding 100) .silence [])) (fun t =>
    ok [2, 1] t && decide (t.play = .idle) && decide (t.mute = some 300000)) = true := by decide
/-- R143, section 11.4: the 18 bytes of record A: flags 0x28 are sound due and orphaned present, the deadline 0x002710. -/
theorem test_alert_info : leaves (exec .alertInfo (ask (sounding 100) .alertInfo [0, 0]))
    (ok [0, 0, 0, 5, 2, 2, 3, 2, 1, 0x28, 0, 0, 10, 0, 0x27, 0x10, 1, 0xFF]) = true := by decide
/-- R144: one entry, no continuation; flags 0x06 are sound due and orphaned present. -/
theorem test_alert_list : leaves (exec .alertList (ask (sounding 100) .alertList [0]))
    (ok [1, 0xFF, 0, 0, 0, 0, 5, 1, 2, 1, 0x06]) = true := by decide
/-- R74: 24 steps are taken by first fit from index 2; 129 steps are BAD_VALUE (R76). -/
theorem test_define : leaves (exec .patternDefine (ask stocked .patternDefine [3, 24, 0, 1])) (fun t =>
    ok [0, 2] t && decide (t.free = [{ start := 26, length := 998 }])) = true := by decide
theorem test_define_bad : leaves (exec .patternDefine (ask stocked .patternDefine [3, 129, 0, 1])) (refused .badValue [])
    = true := by decide
/-- R77: two steps fill the entry: tone 10, level 3, 30 units are the bytes 0x56, 0x1E (Table 11.4). -/
theorem test_append : leaves (exec .patternAppend (ask (filling stocked 1) .patternAppend [2, 1, 0x56, 0x1E])) (fun t =>
    ok [2] t && decide ((t.word 1) = toneA.word)) = true := by decide
theorem test_append_overfill : leaves (exec .patternAppend (ask (filling stocked 2) .patternAppend [2, 1, 0x56, 0x1E]))
    (refused .overfill []) = true := by decide
/-- R78: a full entry becomes READY; with one step missing it is INCOMPLETE with the fill count. -/
theorem test_commit : leaves (exec .patternCommit (ask (filling stocked 2) .patternCommit [2])) (fun t =>
    ok [] t && decide ((t.entry 2).body = .ready layoutA)) = true := by decide
theorem test_commit_incomplete : leaves (exec .patternCommit (ask (filling stocked 1) .patternCommit [2]))
    (refused .incomplete [1]) = true := by decide
/-- R80: the delete frees the extent, which merges: 1024 free, largest 1024; while a record names it, IN_USE with 1. -/
theorem test_delete : leaves (exec .patternDelete (ask stocked .patternDelete [2])) (ok [4, 0, 4, 0]) = true := by decide
theorem test_delete_in_use : leaves (exec .patternDelete (ask (sounding 100) .patternDelete [2])) (refused .inUse [1])
    = true := by decide
/-- R81: READY, definer P0, start 0, length 2, no fill count, loop index 1, pace 1, no reference. -/
theorem test_pattern_info : leaves (exec .patternInfo (ask stocked .patternInfo [2]))
    (ok [2, 0, 0, 0, 2, 0xFF, 1, 1, 0]) = true := by decide
/-- R82: the built-in pattern 28 reads tone 12, level 3, 50 units with parity good; a bad step of a user pattern is shown
and damages it (R85). -/
theorem test_pattern_read : leaves (exec .patternRead (ask stocked .patternRead [28, 0, 1])) (ok [1, 0x66, 0xB2]) = true := by
  decide
theorem test_pattern_read_damages : leaves (exec .patternRead (ask (spoilt stocked) .patternRead [2, 1, 1])) (fun t =>
    ok [1, 0x00, 0x14] t && decide ((t.entry 2).body = .damaged layoutA) && (t.record 29).isSome) = true := by decide
/-- R145: PLAYING, owner and head slot 0, NORMAL, 1022 free in one extent, one record, P0 and P1 OPEN. -/
theorem test_status : leaves (exec .status (ask (sounding 100) .status []))
    (ok [1, 0, 0, 0, 0, 0, 3, 0xFE, 3, 0xFE, 1, 0x05, 0, 0, 0]) = true := by decide
/-- R158: the default mute period is 300. -/
theorem test_config_get : leaves (exec .configGet (ask stocked .configGet [2])) (ok [2, 1, 0x2C]) = true := by decide
/-- R159: sense low 201 is above sense high 200; R139: no port writes the profile. -/
theorem test_config_set_order : leaves (exec .configSet (ask stocked .configSet [9, 0, 201])) (refused .badValue [])
    = true := by decide
theorem test_config_set_enable : leaves (exec .configSet (ask stocked .configSet [8, 0, 0])) (fun t =>
    ok [8, 0, 0] t && decide (t.lineTimer = none)) = true := by decide
/-- R57: a plain step end loads the next step; R59: after the last one the owner goes on at its loop index. -/
theorem test_step_end : leaves (exec .stepEnd (sounding 0)) (fun t =>
    decide (t.play = .playing (at0 0) { pattern := 2, index := 1, timeLeft := 200, tone := 0, level := 0 })) = true := by
  decide
theorem test_cycle_end : leaves (exec .stepEnd lastStep) (fun t =>
    decide (t.play.now.map Sounding.index = some 1) && decide ((t.record 0).map Record.introDone = some true)) = true := by
  decide
/-- R15: priority 3 is the ceiling, so the deadline stops. -/
theorem test_escalation : leaves (exec (.escalationExpiry 0) (put stocked 0 { recordA with deadline := some 0 })) (fun t =>
    decide ((t.record 0).map Record.current = some 3) && decide ((t.record 0).map Record.deadline = some none)) = true := by
  decide
/-- R46: the muted record sounds again. -/
theorem test_mute_expiry : leaves (exec .muteTimerExpiry
      { put stocked 0 { recordA with muted := true } with mute := some 0 }) (fun t =>
    decide (t.mute = none) && decide (t.order = [0]) && decide (t.play ≠ .idle)) = true := by decide
/-- R25, R132: the port is LOST, its record orphaned, and slot 24 holds PORT_LOST with tag 0 and priority 5. -/
theorem test_keepalive_expiry : leaves (exec (.keepaliveExpiry 0)
      ((sounding 100).setPort 0 { (sounding 100).port 0 with keepalive := some 0 })) (fun t =>
    decide ((t.port 0).session = .lost) && decide ((t.record 0).map Record.raiser = some (.host 0 true)) &&
      decide ((t.record 24).map Record.current = some 5)) = true := by decide
/-- R107, R110: the fourth bad drive sample, below sense low, declares OPEN: SOUNDER_FAULT has tag 1. -/
theorem test_line_fault : leaves (exec (.lineSample 19 .continuity)
      { sounding 100 with line := .normal 3, lineTimer := some 0 }) (fun t =>
    decide (t.line = .fault .openLine 0) && decide ((t.record 28).map Record.tag = some 1)) = true := by decide
/-- R108: the idle check finds a low path: SHORT, one bad sample. -/
theorem test_idle_check : leaves (exec (.lineSample 100 .lowPath) { State.reset with lineTimer := some 0 }) (fun t =>
    decide (t.line = .normal 1)) = true := by decide
/-- R92: the twentieth low sample accepts the press. -/
theorem test_debounce : leaves (exec (.debounceSample .low .high .high)
      { State.reset with panel := { State.reset.panel with ack := { state := .pressing, count := 19, accepted := none } } })
      (fun t => decide (t.panel.ack = { state := .pressed, count := 0, accepted := some .press })) = true := by decide
/-- R94: the panel acknowledges with PANEL. -/
theorem test_panel_ack : leaves (exec .panelAck
      { sounding 100 with panel := { State.reset.panel with ack := { state := .pressed, count := 0, accepted := some .press } } })
      (fun t => decide ((t.record 0).map Record.state = some (.acknowledged .panel)) && decide (t.play = .idle)) = true := by
  decide
/-- R95: the panel's silence action mutes the owner. -/
theorem test_panel_silence : leaves (exec .panelSilence
      { sounding 100 with panel :=
          { State.reset.panel with silence := { state := .pressed, count := 0, accepted := some .press } } })
      (fun t => decide ((t.record 0).map Record.muted = some true) && decide (t.play = .idle)) = true := by decide
/-- R93: an accepted release of ACK has no effect. -/
theorem test_release : leaves (exec (.buttonReleaseAccepted .ack)
      { State.reset with panel := { State.reset.panel with ack := { state := .released, count := 0, accepted := some .release } } })
      (fun t => decide (t = State.reset)) = true := by decide
/-- R96: the lamp test lights every lamp and its end darkens them. -/
theorem test_lamp_test_begin : leaves (exec .lampTestBegin
      { State.reset with panel := { State.reset.panel with test := { state := .pressed, count := 0, accepted := some .press } } })
      (fun t => t.lampLit 0 && t.lampLit 3) = true := by decide
theorem test_lamp_test_end : leaves (exec .lampTestEnd
      { State.reset with lampTest := true, panel :=
          { State.reset.panel with test := { state := .released, count := 0, accepted := some .release } } })
      (fun t => !t.lampLit 0) = true := by decide
/-- R99: the phase returns to 0 after 999; at phase 125 a FAST lamp is dark. -/
theorem test_flash_clock : leaves (exec .flashClockTick { State.reset with flashPhase := 999 }) (fun t =>
    decide (t.flashPhase = 0)) = true := by decide
theorem test_fast_lamp : (sounding 1).lampLit 0 = true ∧ State.lampLit { sounding 1 with flashPhase := 125 } 0 = false := by
  decide

/-! ### Witnesses: the hypotheses of each statement, met together -/

theorem kindOf_kindCode (k : Kind) : kindOf (kindCode k) = some k := by cases k <;> decide

/-- A request asked of port 0, of the right length for its kind, is the Executor's next taking. -/
theorem ask_taking (s : State) (k : Kind) (payload : List Byte) (h : lengthOk k payload = true) :
    (ask s k payload).Taking k 0 (asking k payload) [] := by
  have hp : (ask s k payload).port 0 = { s.port 0 with session := .opened, inbound := [asking k payload] } := by
    simp [ask, State.port]
  refine ⟨⟨by rw [hp], fun q hq => ?_⟩, kindOf_kindCode k, h, by rw [hp]⟩
  exact absurd hq ((by decide : ∀ q : Port, ¬ turnDistance 3 q < turnDistance 3 0) q)

/-- Where every current value is at hand, a predicate of the state is settled by evaluation. -/
theorem sounding_arrival : (sounding 100).ArrivalExact := by unfold State.ArrivalExact; decide

theorem witness_StepTakesFrontCommand :
    State.pending { State.reset with pending := [.tick, .bye] } = .tick :: [.bye] ∧ State.reset.pending = [] := by decide

theorem witness_ResetEndsWithDefaults_kept_none :
    let s : State := { State.reset with inReset := true }
    s.inReset = true ∧ ∀ n, isBuiltIn n = false → (s.entry n).body.isDamaged = false := by decide
theorem witness_ResetEndsWithDefaults_kept_damaged :
    let s := damaged { State.reset with inReset := true }
    s.inReset = true ∧ isBuiltIn 2 = false ∧ (s.entry 2).body.isDamaged = true ∧
      (∀ m, m < 2 → (s.entry m).body.isDamaged = false) ∧ (∀ i, s.record i = none) ∧ s.arrival = [] ∧ s.play = .idle ∧
      s.line = .normal 0 ∧ (∀ p, (s.port p).session = .closed) ∧ s.BuiltInsStand := by
  unfold State.BuiltInsStand; decide

theorem witness_ResetEndsWithDefaults_no_reset : State.reset.inReset = false := rfl

theorem witness_TickAdvancesTimers :
    (sounding 300).clkin = true ∧ (sounding 300).inReset = false ∧
    (sounding 300).play = .playing (at0 0) { pattern := 2, index := 0, timeLeft := 300, tone := 10, level := 3 } ∧
    (sounding 300).release.play = .tail { pattern := 2, index := 0, timeLeft := 300, tone := 10, level := 3 } ∧
    State.reset.play = .idle ∧ State.clkin { State.reset with clkin := false } = false ∧
    State.inReset { State.reset with inReset := true } = true := by decide

theorem witness_LampsShowTheRecords :
    (sounding 1).inReset = false ∧ (sounding 1).lampTest = false ∧ (sounding 1).engaged 0 = false ∧
    (sounding 1).indication 0 = .fast ∧ (put stocked 0 { recordA with state := .returned }).indication 0 = .slow ∧
    (put stocked 0 { recordA with state := .acknowledged .panel }).indication 0 = .steady ∧ stocked.indication 0 = .off ∧
    State.lampTest { sounding 1 with lampTest := true } = true ∧
    (State.line { sounding 1 with line := .fault .openLine 0 }).isFault = true ∧ (sounding 1).substituteRole = some 3 ∧
    (sounding 1).clkin = true ∧ State.flashPhase { sounding 1 with flashPhase := 999 } = 999 := by decide

theorem witness_ButtonsAreDebounced :
    State.reset.clkin = true ∧ State.reset.inReset = false ∧ State.reset.panel.ack.state = .released ∧
    State.reset.panel.ack.count = 0 ∧ State.reset.panel.ack.accepted = none ∧
    Button.sample { state := .pressing, count := 18, accepted := none } .low =
      { state := .pressing, count := 19, accepted := none } ∧
    Button.sample { state := .releasing, count := 18, accepted := none } .high =
      { state := .releasing, count := 19, accepted := none } ∧
    Button.sample { state := .pressed, count := 0, accepted := none } .high =
      { state := .releasing, count := 1, accepted := none } := by decide

theorem witness_AcceptedChangesAct :
    let press (off : Bool) : State :=
      { State.reset with
        params := { State.reset.params with panelEnable := !off }
        panel :=
          { ack := { state := .pressed, count := 0, accepted := some .press }
            silence := { state := .pressed, count := 0, accepted := some .press }
            test := { state := .pressed, count := 0, accepted := some .press } } }
    let release : State :=
      { State.reset with
        panel :=
          { ack := { state := .released, count := 0, accepted := some .release }
            silence := { state := .released, count := 0, accepted := some .release }
            test := { state := .released, count := 0, accepted := some .release } } }
    (press true).panel.ack.accepted = some .press ∧ (press true).params.panelEnable = false ∧
    (press true).panel.silence.accepted = some .press ∧ (press false).panel.test.accepted = some .press ∧
    release.panel.ack.accepted = some .release ∧ release.panel.silence.accepted = some .release ∧
    release.panel.test.accepted = some .release := by decide

theorem witness_AcceptedChangesAct_none :
    State.reset.panel.ack.accepted ≠ some .press ∧ State.reset.panel.silence.accepted ≠ some .press ∧
    State.reset.panel.ack.accepted ≠ some .release ∧ State.reset.panel.silence.accepted ≠ some .release ∧
    State.reset.panel.test.accepted ≠ some .press ∧ State.reset.panel.test.accepted ≠ some .release ∧
    (Button.accepted { state := .pressed, count := 0, accepted := some .press }) ≠ some .release := by decide

theorem witness_EveryRecordAcknowledged :
    (ask (sounding 100) .ackAll []).ArrivalExact ∧
    (ask (sounding 100) .ackAll []).Taking .ackAll 0 (asking .ackAll []) [] ∧
    ((ask (sounding 100) .ackAll []).rights 0).a = true ∧ (sounding 100).params.panelEnable = true ∧
    (State.panel { sounding 100 with panel :=
      { State.reset.panel with ack := { state := .pressed, count := 0, accepted := some .press } } }).ack.accepted =
        some .press :=
  ⟨sounding_arrival, ask_taking _ _ _ (by decide), by decide, by decide, by decide⟩

theorem witness_FreeingFollowsItsSteps :
    (sounding 100).record 0 = some recordA ∧
    (State.setSlot stocked 0 { generation := 255, record := some recordA }).record 0 = some recordA ∧
    ((State.setSlot stocked 0 { generation := 255, record := some recordA }).slot 0).generation = 255#8 := by decide

theorem witness_RaiseFieldsAreChecked :
    (raiseFields [0, 5, 31, 7, 7, 15, 3, 1, 255]).isSome = true ∧ raiseFields [0, 5, 31, 7, 6, 15, 3, 1, 255] = none ∧
    raiseFields [0, 5, 32, 7, 7, 15, 3, 1, 255] = none ∧
    (ask stocked .raise [0, 5, 31, 7, 7, 15, 4, 1, 255]).Taking .raise 0 (asking .raise [0, 5, 31, 7, 7, 15, 4, 1, 255]) [] ∧
    raiseFields (asking .raise [0, 5, 31, 7, 7, 15, 4, 1, 255]).payload = none :=
  ⟨by decide, by decide, by decide, ask_taking _ _ _ (by decide), by decide⟩

/-- The fields of a RAISE on pattern 2, not latching, CONTINUOUS, at priority 2. -/
def fieldsB (tag : BitVec 16) : RaiseFields :=
  { tag := tag, pattern := 2, base := 2, ceiling := 2, lamps := 1, latching := false, mode := .continuous, interval := 0 }

/-- The number of occupied records whose origin is the port (R8). -/
def held (s : State) (p : Port) : Nat :=
  (List.finRange 30).countP (fun j => (s.record j).any (fun q =>
    match q.raiser with | .host o _ => decide (o = p) | .internal => false))

/-- R8: an orphaned RETURNED record counts; an internal one does not. -/
theorem test_holding :
    let s := put (put stocked 0 { recordA with raiser := .host 0 true, state := .returned }) 24
      { recordA with raiser := .internal }
    held s 0 = 1 ∧ s.holding 0 = 1 := by decide

theorem witness_RaiseCreatesRecord :
    let s := ask (sounding 100) .raise [0, 6, 2, 2, 2, 1, 0, 0, 0]
    let r := asking .raise [0, 6, 2, 2, 2, 1, 0, 0, 0]
    s.Taking .raise 0 r [] ∧ raiseFields r.payload = some (fieldsB 6) ∧
      (∀ j, ∀ q ∈ s.record j, q.origin = .host 0 → q.tag ≠ (fieldsB 6).tag) ∧
      (s.entry 2).body = .ready layoutA ∧ held s 0 < s.params.quota ∧ s.record 1 = none ∧
      (∀ j : SlotNo, j < 1 → s.record j ≠ none) :=
  ⟨ask_taking _ _ _ (by decide), by decide, by decide, by decide, by decide, by decide, by decide⟩

/-- A table whose 24 host slots are occupied by records of P1. -/
def full : State :=
  { ask stocked .raise [0, 6, 2, 2, 2, 1, 0, 0, 0] with
    slots := Vector.ofFn (fun i : SlotNo =>
      { generation := 0
        record := if i.val < 24 then some { recordA with raiser := .host 1 false, tag := BitVec.ofNat 16 i.val } else none }) }

theorem witness_RaiseExistingOrRefused :
    let s := ask (sounding 100) .raise [0, 5, 2, 2, 2, 1, 0, 0, 0]
    let other := fun (t : State) => ask t .raise [0, 6, 2, 2, 2, 1, 0, 0, 0]
    s.TagsDistinct ∧ s.Taking .raise 0 (asking .raise [0, 5, 2, 2, 2, 1, 0, 0, 0]) [] ∧
      raiseFields [0, 5, 2, 2, 2, 1, 0, 0, 0] = some (fieldsB 5) ∧ s.record 0 = some recordA ∧
      recordA.origin = .host 0 ∧ recordA.tag = (fieldsB 5).tag ∧ recordA.state = .alerting ∧
    raiseFields [0, 6, 2, 2, 2, 1, 0, 0, 0] = some (fieldsB 6) ∧
    (∀ j, ∀ q ∈ (other stocked).record j, q.origin = .host 0 → q.tag ≠ 6) ∧
    ((other (filling stocked 1)).entry 2).body = .loading layoutA 1 ∧
    ((other (damaged stocked)).entry 2).body = .damaged layoutA ∧
    State.params { other (sounding 1) with params := { State.reset.params with quota := 1 } } =
      { State.reset.params with quota := 1 } ∧ held (other (sounding 1)) 0 = 1 ∧
    held full 0 < full.params.quota ∧ (∀ i : SlotNo, i.val < 24 → full.record i ≠ none) :=
  ⟨by unfold State.TagsDistinct; decide, ask_taking _ _ _ (by decide), by decide, by decide, by decide, by decide,
    by decide, by decide, by decide, by decide, by decide, by decide, by decide, by decide, by decide⟩

theorem witness_RaiseRealertsRecord :
    let q : Record := { recordA with state := .acknowledged .panel, deadline := none }
    let s := ask (put stocked 0 q) .raise [0, 5, 2, 2, 2, 1, 0, 0, 0]
    s.TagsDistinct ∧ s.Taking .raise 0 (asking .raise [0, 5, 2, 2, 2, 1, 0, 0, 0]) [] ∧
      raiseFields [0, 5, 2, 2, 2, 1, 0, 0, 0] = some (fieldsB 5) ∧ s.record 0 = some q ∧ q.origin = .host 0 ∧
      q.tag = (fieldsB 5).tag ∧ q.state ≠ .alerting ∧ (s.entry 2).body = .ready layoutA ∧
      ((filling s 1).entry 2).body = .loading layoutA 1 ∧ ((damaged s).entry 2).body = .damaged layoutA :=
  ⟨by unfold State.TagsDistinct; decide, ask_taking _ _ _ (by decide), by decide, by decide, by decide, by decide,
    by decide, by decide, by decide, by decide⟩

theorem witness_StaleHandlesAreRefused :
    (ask (sounding 100) .ack [30, 0]).Taking .ack 0 (asking .ack [30, 0]) [] ∧
    (ask (sounding 100) .ack [29, 0]).Taking .ack 0 (asking .ack [29, 0]) [] ∧
    (ask (sounding 100) .ack [29, 0]).record 29 = none ∧
    (ask (sounding 100) .clear [0, 1]).Taking .clear 0 (asking .clear [0, 1]) [] ∧
    ((ask (sounding 100) .clear [0, 1]).slot 0).generation ≠ 1#8 :=
  ⟨ask_taking _ _ _ (by decide), ask_taking _ _ _ (by decide), by decide, ask_taking _ _ _ (by decide), by decide⟩

/-- Port 0 asks for slot 0, which holds this record. -/
def asksOf (k : Kind) (q : Record) : State := ask (put stocked 0 q) k [0, 0]

theorem asksOf_names (k : Kind) (q : Record) : (asksOf k q).Names (asking k [0, 0]) 0 q := by
  refine ⟨?_, ?_⟩
  · have : ((asksOf k q).slot 0).generation = 0#8 := by simp [asksOf, ask, put, State.takeRef, State.slot]; decide
    rw [this]; rfl
  · simp [asksOf, ask, put, State.takeRef, State.record, State.slot]

theorem witness_ClearActsByState :
    (∀ q, (asksOf .clear q).Taking .clear 0 (asking .clear [0, 0]) []) ∧
    (∀ q, (asksOf .clear q).Names (asking .clear [0, 0]) 0 q) ∧
    (∃ q : Record, q.raiser = .internal) ∧ (∃ q : Record, q.raiser = .host 1 false) ∧
    (∃ q : Record, q.raiser = .host 1 true ∧ ((asksOf .clear q).rights 0).a = true) ∧
    (∃ q : Record, q.raiser = .host 0 false ∧ q.state = .alerting ∧ q.latching = true) ∧
    (∃ q : Record, q.raiser = .host 0 false ∧ q.state = .alerting ∧ q.latching = false) ∧
    (∃ q : Record, q.raiser = .host 0 false ∧ q.state = .acknowledged .panel) ∧
    (∃ q : Record, q.raiser = .host 0 false ∧ q.state = .returned) :=
  ⟨fun _ => ask_taking _ _ _ rfl, fun q => asksOf_names _ q, ⟨{ recordA with raiser := .internal }, rfl⟩,
    ⟨{ recordA with raiser := .host 1 false }, rfl⟩, ⟨{ recordA with raiser := .host 1 true }, rfl, by decide⟩,
    ⟨{ recordA with latching := true }, rfl, rfl, rfl⟩, ⟨recordA, rfl, rfl, rfl⟩,
    ⟨{ recordA with state := .acknowledged .panel }, rfl, rfl⟩, ⟨{ recordA with state := .returned }, rfl, rfl⟩⟩

theorem witness_AckActsByState :
    (∀ q, (asksOf .ack q).Taking .ack 0 (asking .ack [0, 0]) []) ∧
    (∀ q, (asksOf .ack q).Names (asking .ack [0, 0]) 0 q) ∧
    (∀ q, ((asksOf .ack q).rights 0).a = true) ∧ ((rightsOf 2 2).a = false) ∧
    (∃ q : Record, q.origin = .host 0 ∧ q.state = .alerting) ∧ (∃ q : Record, q.origin ≠ .host 0 ∧ q.state = .returned) ∧
    (∃ q : Record, q.state = .acknowledged (.port 1)) :=
  ⟨fun _ => ask_taking _ _ _ rfl, fun q => asksOf_names _ q, fun _ => rfl, by decide, ⟨recordA, rfl, rfl⟩,
    ⟨{ recordA with raiser := .internal, state := .returned }, by decide, rfl⟩,
    ⟨{ recordA with state := .acknowledged (.port 1) }, rfl⟩⟩

theorem witness_InternalRecordsFollowTheirCause :
    stocked.record 29 = none ∧
    (∃ q : Record, (put stocked 29 q).record 29 = some q ∧ q.raiser = .internal ∧ q.state = .alerting) ∧
    (∃ q : Record, (put stocked 29 q).record 29 = some q ∧ q.raiser = .internal ∧ q.state = .acknowledged .panel) ∧
    (∃ q : Record, (put stocked 29 q).record 29 = some q ∧ q.raiser = .internal ∧ q.state = .returned) :=
  ⟨by decide, ⟨{ recordA with raiser := .internal }, by decide, rfl, rfl⟩,
    ⟨{ recordA with raiser := .internal, state := .acknowledged .panel }, by decide, rfl, rfl⟩,
    ⟨{ recordA with raiser := .internal, state := .returned }, by decide, rfl, rfl⟩⟩

theorem witness_EscalationAndMuteExpiriesAct :
    let q : Record := { recordA with deadline := some 0 }
    (put stocked 23 q).record 23 = some q ∧ q.deadline = some 0 ∧ q.state = .alerting ∧ q.current < q.ceiling ∧
      State.mute { put stocked 0 { recordA with muted := true } with mute := some 0 } = some 0 := by decide

theorem witness_EscalationAndMuteExpiriesAct_not_due :
    stocked.record 0 = none ∧ (sounding 1).record 0 = some recordA ∧ recordA.deadline ≠ some 0 ∧
    (put stocked 0 { recordA with deadline := none }).record 0 = some { recordA with deadline := none } ∧
    State.mute { stocked with mute := some 1 } ≠ some 0 ∧ stocked.mute ≠ some 0 := by decide

theorem witness_SoundingOrderIsRanked : (sounding 100).ArrivalExact ∧ (sounding 100).order = [0] :=
  ⟨sounding_arrival, by decide⟩

theorem witness_ArbiterDecides :
    let urgent : Record := { recordA with tag := 6, base := 6, current := 6, ceiling := 7, pattern := 28 }
    (put stocked 0 recordA).play = .idle ∧ stocked.order = [] ∧
    (put (sounding 100) 1 urgent).play = (sounding 100).play ∧ (put (sounding 100) 1 urgent).ownerStands (at0 0) = true ∧
    (put (sounding 100) 1 urgent).order.head? = some 1 ∧ (put (sounding 100) 1 urgent).priority 1 = 6 ∧
    (put (sounding 100) 1 urgent).params.urgent = 6 ∧ (put (sounding 100) 1 urgent).priority 0 = 2 ∧
    ((sounding 100).setSlot 0 { generation := 1, record := none }).ownerStands (at0 0) = false ∧
    (sounding 100).release.play = .tail { pattern := 2, index := 0, timeLeft := 100, tone := 10, level := 3 } ∧
    (sounding 100).DriveFollows := by
  unfold State.DriveFollows; decide

theorem witness_SilenceMutesAndCuts :
    (ask (sounding 100) .silence []).Taking .silence 0 (asking .silence []) [] ∧
    ((ask (sounding 100) .silence []).rights 0).a = true ∧ (sounding 100).params.panelEnable = true ∧
    (State.panel { sounding 100 with panel :=
      { State.reset.panel with silence := { state := .pressed, count := 0, accepted := some .press } } }).silence.accepted =
        some .press :=
  ⟨ask_taking _ _ _ (by decide), by decide, by decide, by decide⟩

theorem witness_TenureStarts :
    (put stocked 0 recordA).play = .idle ∧ (put stocked 0 recordA).order = [0] ∧
    (put stocked 0 recordA).record 0 = some recordA ∧ ((put stocked 0 recordA).entry 2).body = .ready layoutA ∧
    layoutA.start = some 0 ∧ ((put stocked 0 recordA).word 0).good = true ∧ ((put stocked 0 recordA).word 0).step = toneA ∧
    ((damaged (put stocked 0 recordA)).entry 2).body = .damaged layoutA ∧
    (builtInSteps 28)[0]? = some { tone := 12, level := 3, units := 50 } := by decide

theorem witness_StepEndGoesOnPreemptsOrEndsTail :
    let higher : Record := { recordA with tag := 6, base := 3, current := 3, pattern := 28 }
    (sounding 0).play = .playing (at0 0) { pattern := 2, index := 0, timeLeft := 0, tone := 10, level := 3 } ∧
    (sounding 0).ownerStands (at0 0) = true ∧ (sounding 0).record 0 = some recordA ∧
    ((sounding 0).entry 2).body = .ready layoutA ∧ 0 + 1 < layoutA.length ∧ (sounding 0).order.head? = some 0 ∧
    ((sounding 0).word (0 + (0 + 1))).good = true ∧ ((sounding 0).word (0 + (0 + 1))).step = restA ∧
    (put (sounding 0) 1 higher).order.head? = some 1 ∧ (put (sounding 0) 1 higher).priority 1 = 3 ∧
    (sounding 0).release.play = .tail { pattern := 2, index := 0, timeLeft := 0, tone := 10, level := 3 } := by decide

theorem witness_StepEndGoesOnPreemptsOrEndsTail_damaged :
    let higher : Record := { recordA with tag := 6, base := 3, current := 3, pattern := 28 }
    let s := damaged (put (sounding 0) 1 higher)
    s.play = .playing (at0 0) { pattern := 2, index := 0, timeLeft := 0, tone := 10, level := 3 } ∧
    s.ownerStands (at0 0) = true ∧ s.record 0 = some recordA ∧ (s.entry 2).body = .damaged layoutA ∧
    0 + 1 < layoutA.length ∧ s.order.head? = some 1 ∧ s.priority 1 = 3 := by decide
theorem witness_StepEndGoesOnPreemptsOrEndsTail_not_due :
    State.reset.play = .idle ∧
    (sounding 1).play = .playing (at0 0) { pattern := 2, index := 0, timeLeft := 1, tone := 10, level := 3 } ∧
    (sounding 1).release.play = .tail { pattern := 2, index := 0, timeLeft := 1, tone := 10, level := 3 } ∧
    (1 : Nat) ≠ 0 := by decide

theorem witness_CycleEndReportsAndHandsOver :
    let counted := fun left => lastStep.setRecord 0 { recordA with mode := .counted 2 left }
    lastStep.play = .playing (at0 0) { pattern := 2, index := 1, timeLeft := 0, tone := 0, level := 0 } ∧
    lastStep.ownerStands (at0 0) = true ∧ lastStep.record 0 = some recordA ∧ recordA.mode = .continuous ∧
    (lastStep.entry 2).body = .ready layoutA ∧ 1 + 1 = layoutA.length ∧
    (counted 2).ownerStands (at0 0) = true ∧ ((counted 2).record 0).map Record.mode = some (.counted 2 2) ∧
    ((counted 1).record 0).map Record.mode = some (.counted 2 1) ∧
    (lastStep.word (0 + layoutA.loopIndex)).good = true ∧ (lastStep.word (0 + layoutA.loopIndex)).step = restA := by decide

theorem witness_CycleEndReportsAndHandsOver_damaged :
    let higher : Record := { recordA with tag := 6, base := 3, current := 3, pattern := 28 }
    let last : Record := { recordA with mode := .counted 2 1 }
    let s := damaged lastStep
    s.play = .playing (at0 0) { pattern := 2, index := 1, timeLeft := 0, tone := 0, level := 0 } ∧
    s.ownerStands (at0 0) = true ∧ s.record 0 = some recordA ∧ (s.entry 2).body = .damaged layoutA ∧
    1 + 1 = layoutA.length ∧ ((put s 1 higher).setRecord 0 { recordA with introDone := true }).order = 1 :: [0] ∧
    (s.setRecord 0 last).ownerStands (at0 0) = true ∧ (s.setRecord 0 last).record 0 = some last ∧
    (s.setRecord 0 { last with introDone := true, mode := .counted 2 0, soundDue := false }).order = [] := by decide
/-- R66: an owner on a DAMAGED pattern that is preempted keeps its pattern. -/
theorem test_preempted_on_damaged : leaves (exec .stepEnd
      (damaged (put (sounding 0) 1 { recordA with tag := 6, base := 3, current := 3, pattern := 28 }))) (fun t =>
    decide ((t.record 0).map Record.pattern = some 2) && decide (t.play.now.map Sounding.pattern = some 28)) = true := by
  decide

theorem witness_ParityFailureFallsBack_step_end :
    let s := spoilt (sounding 0)
    let f : Record := { recordA with raiser := .internal, state := .returned, deadline := none }
    s.play = .playing (at0 0) { pattern := 2, index := 0, timeLeft := 0, tone := 10, level := 3 } ∧
    s.ownerStands (at0 0) = true ∧ s.record 0 = some recordA ∧ isBuiltIn 2 = false ∧
    (s.entry 2).body = .ready layoutA ∧ 0 + 1 < layoutA.length ∧ layoutA.start = some 0 ∧
    (s.word (0 + (0 + 1))).good = false ∧ s.order.head? = some 0 ∧ (at0 0).slot ≠ 29 ∧ s.damagedCount = 0 ∧
    s.record 29 = none ∧ (put s 29 f).record 29 = some f ∧ f.state ≠ .alerting ∧ (put s 29 f).order.head? = some 0 ∧
    (s.setEntry 3 { body := .damaged layoutA, refs := 0 }).damagedCount = 1 ∧
    ((damaged (sounding 0)).entry 2).body = .damaged layoutA := by decide
theorem witness_ParityFailureFallsBack_cycle_end :
    let s := spoilt lastStep
    let counted : Record := { recordA with mode := .counted 2 2 }
    s.play = .playing (at0 0) { pattern := 2, index := 1, timeLeft := 0, tone := 0, level := 0 } ∧
    s.ownerStands (at0 0) = true ∧ s.record 0 = some recordA ∧ 1 + 1 = layoutA.length ∧ recordA.mode = .continuous ∧
    (s.setRecord 0 { recordA with introDone := true }).order = 0 :: [] ∧ (s.entry 2).body = .ready layoutA ∧
    (s.word (0 + layoutA.loopIndex)).good = false ∧ s.damagedCount = 0 ∧ s.record 29 = none ∧
    (s.setRecord 0 counted).ownerStands (at0 0) = true ∧ (s.setRecord 0 counted).record 0 = some counted ∧
    (s.setRecord 0 { counted with introDone := true, mode := .counted 2 1 }).order = 0 :: [] ∧
    ((damaged lastStep).entry 2).body = .damaged layoutA := by decide
theorem witness_ParityFailureFallsBack_tenure :
    let s := (put stocked 0 recordA).setWord 0 toneA.word.spoiled
    let again : Record := { recordA with introDone := true }
    s.play = .idle ∧ s.order = 0 :: [] ∧ s.record 0 = some recordA ∧ isBuiltIn recordA.pattern = false ∧
    (s.entry 2).body = .ready layoutA ∧ layoutA.start = some 0 ∧ (s.word (0 + 0)).good = false ∧ s.damagedCount = 0 ∧
    s.record 29 = none ∧ (spoilt (put stocked 0 again)).order = 0 :: [] ∧
    ((spoilt (put stocked 0 again)).word (0 + layoutA.loopIndex)).good = false := by decide

theorem witness_PatternDefineAllocates :
    let s := ask stocked .patternDefine [3, 128, 127, 8]
    s.Taking .patternDefine 0 (asking .patternDefine [3, 128, 127, 8]) [] ∧ (s.rights 0).p = true ∧
    [byte (3 : PatNo).val, byte 128, byte 127, byte 8] = [3#8, 128#8, 127#8, 8#8] ∧ (s.entry 3).body = .empty ∧
    s.free = [] ++ { start := 2, length := 1022 } :: [] ∧ (s.entry 2).body ≠ .empty ∧
    (∀ x ∈ State.free { s with free := [{ start := 2, length := 127 }] }, x.length < 128) ∧
    State.free { s with free := [] } = [] ∧
    (∀ payload, lengthOk .patternDefine payload = true →
      (ask stocked .patternDefine payload).Taking .patternDefine 0 (asking .patternDefine payload) [] ∧
        ((ask stocked .patternDefine payload).rights 0).p = true) ∧
    31 < (32#8 : Byte).toNat ∧ 128 < (129#8 : Byte).toNat ∧ (5#8 : Byte).toNat ≤ (5#8 : Byte).toNat ∧
    8 < (9#8 : Byte).toNat :=
  ⟨ask_taking _ _ _ (by decide), by decide, by decide, by decide, by decide, by decide, by decide, rfl,
    fun _ h => ⟨ask_taking _ _ _ h, rfl⟩, by decide, by decide, by decide, by decide⟩

theorem witness_PatternsAreFilledAndCommitted :
    let s := fun fill => ask (filling stocked fill) .patternAppend [2, 1, 0x56, 0x1E]
    (s 1).Taking .patternAppend 0 (asking .patternAppend [2, 1, 0x56, 0x1E]) [] ∧ ((s 1).rights 0).p = true ∧
    appendFields [2, 1, 0x56, 0x1E] = some (2, [toneA]) ∧ ((s 1).entry 2).body = .loading layoutA 1 ∧
    layoutA.start = some 0 ∧ layoutA.definer = some 0 ∧ toneA.units ≠ 0 ∧ 1 + [toneA].length ≤ layoutA.length ∧
    ((s 2).entry 2).body = .loading layoutA 2 ∧ layoutA.length < 2 + [toneA].length ∧
    (ask (filling stocked 2) .patternCommit [2]).Taking .patternCommit 0 (asking .patternCommit [2]) [] ∧
    (Layout.definer { layoutA with definer := some 1 }) = some 1 ∧
    appendFields [2, 1, 0x56, 0x00] = some (2, [{ toneA with units := 0 }]) :=
  ⟨ask_taking _ _ _ (by decide), by decide, by decide, by decide, by decide, by decide, by decide, by decide, by decide,
    by decide, ask_taking _ _ _ (by decide), by decide, by decide⟩

theorem witness_PatternsAreFilledAndCommitted_refused :
    let entry := fun (body : EntryBody) => stocked.setEntry 2 { body := body, refs := 0 }
    (Instr.patternAppend, Kind.patternAppend) ∈ [(Instr.patternAppend, Kind.patternAppend), (.patternCommit, .patternCommit)] ∧
    (∀ s payload, lengthOk .patternAppend payload = true →
      (ask s .patternAppend payload).Taking .patternAppend 0 (asking .patternAppend payload) []) ∧
    (∀ s payload, lengthOk .patternCommit payload = true →
      (ask s .patternCommit payload).Taking .patternCommit 0 (asking .patternCommit payload) []) ∧
    lengthOk .patternAppend [32, 1, 0, 1] = true ∧ lengthOk .patternAppend [2, 0] = true ∧
    lengthOk .patternAppend (2 :: 9 :: List.replicate 18 1) = true ∧ 31 < (32#8 : Byte).toNat ∧ 8 < (9#8 : Byte).toNat ∧
    ((entry .empty).entry 2).body = .empty ∧ ((entry (.ready layoutA)).entry 2).body = .ready layoutA ∧
    ((entry (.damaged layoutA)).entry 2).body = .damaged layoutA ∧
    ((entry (.ready { layoutA with definer := some 1 })).entry 2).body = .ready { layoutA with definer := some 1 } ∧
    ((entry (.ready { layoutA with definer := none })).entry 2).body = .ready { layoutA with definer := none } :=
  ⟨by decide, fun _ _ h => ask_taking _ _ _ h, fun _ _ h => ask_taking _ _ _ h,
    by decide, by decide, by decide, by decide, by decide, by decide, by decide, by decide, by decide, by decide⟩

theorem witness_PatternDeleteFollowsTable :
    let s := fun (t : State) => ask t .patternDelete [2]
    (∀ t, (s t).Taking .patternDelete 0 (asking .patternDelete [2]) []) ∧ ((s stocked).rights 0).p = true ∧
    (s stocked).BuiltInsStand ∧ isBuiltIn 2 = false ∧ ((s stocked).entry 2) = { body := .ready layoutA, refs := 0 } ∧
    ((s (sounding 1)).entry 2) = { body := .ready layoutA, refs := 1 } ∧
    ((s (filling stocked 1)).entry 2).body = .loading layoutA 1 ∧ ((s (damaged stocked)).entry 2).body = .damaged layoutA ∧
    (∀ m, m ≠ 2 → isBuiltIn m = false → ((s (damaged stocked)).entry m).body.isDamaged = false) ∧
    (ask stocked .patternDelete [32]).Taking .patternDelete 0 (asking .patternDelete [32]) [] ∧ 31 < (32#8 : Byte).toNat :=
  ⟨fun _ => ask_taking _ _ _ rfl, by decide, by unfold State.BuiltInsStand; decide, by decide, by decide, by decide,
    by decide, by decide, by decide, ask_taking _ _ _ rfl, by decide⟩

theorem witness_FreedExtentMerges :
    FreeListSound [{ start := 0, length := 2 }, { start := 5, length := 3 }] ∧
    (∀ x ∈ [({ start := 0, length := 2 } : Extent), { start := 5, length := 3 }], ∀ k, x.covers k = true →
      Extent.covers { start := 2, length := 3 } k = false) := by
  refine ⟨by unfold FreeListSound; decide, ?_⟩
  intro x hx k
  simp only [List.mem_cons, List.not_mem_nil, or_false] at hx
  rcases hx with rfl | rfl <;> simp [Extent.covers] <;> omega

theorem witness_ParityIsLostAndFound :
    let s := fun (t : State) => ask t .patternRead [2, 1, 1]
    (∀ t, (s t).Taking .patternRead 0 (asking .patternRead [2, 1, 1]) []) ∧ isBuiltIn 2 = false ∧
    ((s (spoilt stocked)).entry 2).body = .ready layoutA ∧ layoutA.start = some 0 ∧ 1 + 1 ≤ layoutA.length ∧
    ((s (spoilt stocked)).word (0 + 1 + 0)).ones % 2 = 1 ∧ (s (spoilt stocked)).damagedCount = 0 ∧
    ((s stocked).word (0 + 1 + 0)).ones % 2 = 0 ∧ ((s (damaged stocked)).entry 2).body = .damaged layoutA ∧
    0 < (s (damaged stocked)).damagedCount ∧ ((s (filling stocked 1)).entry 2).body = .loading layoutA 1 ∧
    ((s stocked).entry 28).body.layout.map Layout.length = some (builtInSteps 28).length ∧ (1023 : Nat) < 1024 ∧
    (∀ payload, lengthOk .patternRead payload = true →
      (ask stocked .patternRead payload).Taking .patternRead 0 (asking .patternRead payload) []) ∧
    31 < (32#8 : Byte).toNat ∧ 127 < (128#8 : Byte).toNat ∧ (0#8 : Byte).toNat = 0 ∧ 8 < (9#8 : Byte).toNat :=
  ⟨fun _ => ask_taking _ _ _ rfl, by decide, by decide, by decide, by decide, by decide, by decide, by decide, by decide,
    by decide, by decide, by decide, by decide, fun _ h => ask_taking _ _ _ h, by decide, by decide, by decide, by decide⟩

theorem witness_LineSamplesDeclareAndClearFaults :
    State.lineTimer { sounding 1 with lineTimer := some 0 } = some 0 ∧ (sounding 1).drive.isSome = true ∧
    (sounding 1).params.senseLow = 20 ∧ (sounding 1).params.senseHigh = 200 ∧
    (sounding 1).params.driveClass 19 = some .openLine ∧ (sounding 1).params.driveClass 20 = none ∧
    (sounding 1).params.driveClass 200 = none ∧ (sounding 1).params.driveClass 201 = some .short ∧
    State.line { sounding 1 with line := .normal 3 } = .normal 3 ∧
    State.line { sounding 1 with line := .fault .openLine 15 } = .fault .openLine 15 ∧
    State.line { sounding 1 with line := .fault .openLine 14 } = .fault .openLine 14 ∧
    State.line { sounding 1 with line := .normal 2 } = .normal 2 ∧ stocked.drive = none := by decide

theorem witness_LineSamplesDeclareAndClearFaults_not_due :
    State.reset.lineTimer ≠ some 0 ∧ State.lineTimer { State.reset with lineTimer := some 1 } ≠ some 0 ∧
    State.lineTimer { State.reset with lineTimer := none } ≠ some 0 := by decide

theorem witness_TransactionsBeginAndClock :
    (stocked.port 0).selectLow = false ∧ stocked.inReset = false ∧ (stocked.port 0).transaction = none ∧
    ((transacting stocked [0] .nothing [] []).port 0).transaction.map Transaction.bits = some [] ∧
    (ask stocked .hello []).attention 0 = false ∧
    ((transacting stocked [0] .nothing [1] [true]).port 0).transaction =
      some { status := 0x40, frame := [0], source := .nothing, received := [1], bits := [true] } ∧
    ([1#8] : List Byte).length = 0 + 1 ∧ [0#8][0]? = some 0#8 ∧ ([1#8, 2#8] : List Byte).length = 1 + 1 ∧
    [0#8].length ≤ 1 := by decide

theorem witness_TransactionsBeginAndClock_none :
    ((transacting stocked [0] .nothing [] []).port 0).selectLow = true ∧
    (State.port { stocked with inReset := true } 0).selectLow = false ∧
    State.inReset { stocked with inReset := true } = true := by decide

theorem witness_FramesAreJudged :
    (List.replicate 32 (0#8 : Byte)).length ≤ 32 ∧ crc8 [1, 7, 0] ≠ 0 ∧ ([0, 0] : List Byte).length < 3 ∧
    ([] : List Byte).length < (0#8 : Byte).toNat + 1 ∧ 32 < (33#8 : Byte).toNat ∧ (0#8 : Byte) ≠ 1#8 := by decide

theorem witness_ChipSelectRiseEndsTheTransaction :
    ((transacting stocked [0] .nothing [] []).port 0).transaction.map Transaction.received = some [] ∧
    judge helloFrame = .request (asking .hello []) ∧ judge [0, 0, 0, 0x2B] = .nullFrame ∧ judge [9] = .frameError ∧
    (stocked.port 0).load < 4 ∧
    ((stocked.setPort 0 { stocked.port 0 with inbound := List.replicate 4 (asking .status []) }).port 0).load = 4 ∧
    ([9#8] : List Byte).length < [0#8].length + 1 ∧ ¬ ([9#8, 9#8] : List Byte).length < [0#8].length + 1 ∧
    PortState.events { stocked.port 0 with events := [.overrun 5] } = .overrun 5 :: [] := by decide

theorem witness_ChipSelectRiseEndsTheTransaction_none :
    ((stocked.setPort 0 { stocked.port 0 with selectLow := true }).port 0).transaction = none := by decide

theorem witness_FormatsFollowTheTables :
    (Kind.configSet, 3) ∈ [(Kind.hello, 0), (.configSet, 3)] ∧ (31#8 : Byte).toNat ≤ 31 ∧
    (8#8 : Byte).toNat = (List.replicate 8 (0x56#8, 0x1E#8)).length ∧
    (List.replicate 8 (0x56#8, 0x1E#8))[7]? = some (0x56#8, 0x1E#8) ∧
    (stepFields [0x56, 0x1E])[0]? = some toneA := by decide

/-- Port 0 LOST, with a HELLO waiting. -/
def lostAsking : State := State.reset.setPort 0 { State.reset.port 0 with session := .lost, inbound := [asking .hello []] }

theorem witness_HelloOpensSession :
    (State.reset.setPort 0 { State.reset.port 0 with inbound := [asking .hello []] }).Turn 0 (asking .hello []) [] ∧
    kindOf (asking .hello []).kind = some .hello ∧ (State.reset.port 0).session = .closed ∧
    lostAsking.Turn 0 (asking .hello []) [] ∧ (lostAsking.port 0).session = .lost ∧
    (24 : SlotNo).val = 24 + (0 : Port).val ∧ (27 : SlotNo).val = 24 + (3 : Port).val :=
  ⟨⟨by decide, by decide⟩, by decide, by decide, ⟨by decide, by decide⟩, by decide, by decide, by decide⟩

theorem witness_ByeClosesAndHelloRestarts :
    (ask (sounding 100) .bye []).ArrivalExact ∧ (ask (sounding 100) .bye []).Turn 0 (asking .bye []) [] ∧
    kindOf (asking .bye []).kind = some .bye ∧ ((ask (sounding 100) .bye []).port 0).session = .opened ∧
    (ask (sounding 100) .hello []).Turn 0 (asking .hello []) [] ∧ kindOf (asking .hello []).kind = some .hello :=
  ⟨sounding_arrival, (ask_taking _ _ _ rfl).1, by decide, by decide, (ask_taking _ _ _ rfl).1, by decide⟩

theorem witness_KeepaliveExpiryLosesPort :
    let s := (sounding 100).setPort 0 { (sounding 100).port 0 with keepalive := some 0 }
    (s.port 0).session = .opened ∧ (s.port 0).keepalive = some 0 ∧ (24 : SlotNo).val = 24 + (0 : Port).val := by decide

theorem witness_KeepaliveExpiryLosesPort_not_due :
    (State.reset.port 0).session ≠ .opened ∧ (stocked.port 0).keepalive ≠ some 0 ∧
    ((stocked.setPort 0 { stocked.port 0 with keepalive := some 1 }).port 0).keepalive ≠ some 0 ∧
    ((stocked.setPort 0 { stocked.port 0 with keepalive := none }).port 0).keepalive ≠ some 0 := by decide

theorem witness_SubscribeReplacesSubscription :
    (∀ payload, lengthOk .subscribe payload = true →
      (ask stocked .subscribe payload).Taking .subscribe 0 (asking .subscribe payload) []) ∧
    (7#8 : Byte).toNat ≤ 7 ∧ (1#8 : Byte).toNat ≤ 1 ∧ 7 < (8#8 : Byte).toNat ∧ 1 < (2#8 : Byte).toNat :=
  ⟨fun _ h => ask_taking _ _ _ h, by decide, by decide, by decide, by decide⟩

theorem witness_EventsArePosted :
    let e : Event := .resounded 0
    let holding := fun (queue : List Event) => stocked.setPort 0 { stocked.port 0 with events := queue }
    e.isOverrun = false ∧ (stocked.port 0).session = .opened ∧ (stocked.port 0).mask.sound = true ∧
    ((holding (List.replicate 14 e)).port 0).events.length = 14 ∧
    ((holding (List.replicate 15 e)).port 0).events.length = 15 ∧
    ((holding (List.replicate 15 e ++ [.overrun 255])).port 0).events = List.replicate 15 e ++ [.overrun 255] ∧
    (∀ y ∈ List.replicate 15 e, y.isOverrun = false) ∧ (State.reset.port 0).session ≠ .opened := by decide

theorem witness_ExecutorServesInTurn :
    let odd : Request := { kind := 0x17, seq := 7, payload := [] }
    (Instr.ack, Kind.ack) ∈ requestCommands ∧ (ask stocked .ack [0, 0]).Turn 0 (asking .ack [0, 0]) [] ∧
    kindOf (asking .ack [0, 0]).kind = some .ack ∧ kindOf (asking .ack [0, 0]).kind ≠ some .clear ∧
    (State.reset.setPort 0 { State.reset.port 0 with inbound := [odd] }).Turn 0 odd [] ∧ kindOf odd.kind = none ∧
    (∀ p, (State.reset.port p).inbound = []) ∧ (∀ k, (Instr.tick, k) ∉ requestCommands) ∧
    (∃ t, exec .tick State.reset = .next t) :=
  ⟨by decide, (ask_taking _ _ _ rfl).1, by decide, by decide, ⟨by decide, by decide⟩, by decide, by decide,
    fun k => by cases k <;> decide, ⟨_, rfl⟩⟩

theorem witness_RefusalsChangeNothing :
    (Instr.ack, Kind.ack) ∈ requestCommands ∧ (ask stocked .ack [0, 0]).Turn 0 (asking .ack [0, 0]) [] ∧
    kindOf (asking .ack [0, 0]).kind = some .ack ∧
    leaves (exec .ack (ask stocked .ack [0, 0])) (fun t =>
      decide ((t.port 0).replies = [] ++ [{ seq := 7, status := .staleHandle, payload := [] }])) = true :=
  ⟨by decide, (ask_taking _ _ _ rfl).1, by decide, by decide⟩

theorem witness_FirstChecksInOrder :
    (State.reset.setPort 0 { State.reset.port 0 with inbound := [{ kind := 0x17, seq := 7, payload := [] }] }).Turn 0
      { kind := 0x17, seq := 7, payload := [] } [] ∧ kindOf 0x17#8 = none ∧
    lengthOk .ack [0] = false ∧ lengthOk .ack [0, 0] = true ∧ (State.reset.port 0).session ≠ .opened ∧
    (rightsOf 2 2).a = false ∧ (rightsOf 1 1).p = false ∧ (rightsOf 1 1).c = false ∧
    (Instr.ackAll, Kind.ackAll) ∈ requestCommands :=
  ⟨⟨by decide, by decide⟩, by decide, by decide, by decide, by decide, by decide, by decide, by decide, by decide⟩

theorem witness_ReadsReportAndChangeNothing :
    (asksOf .alertInfo recordA).Taking .alertInfo 0 (asking .alertInfo [0, 0]) [] ∧
    (asksOf .alertInfo recordA).Names (asking .alertInfo [0, 0]) 0 recordA ∧
    (ask stocked .patternInfo [31]).Taking .patternInfo 0 (asking .patternInfo [31]) [] ∧
    ((ask stocked .patternInfo [0]).entry 0).body = .empty ∧ ((ask stocked .patternInfo [2]).entry 2).body = .ready layoutA ∧
    (ask stocked .status []).Taking .status 0 (asking .status []) [] ∧
    (ask stocked .configGet [13]).Taking .configGet 0 (asking .configGet [13]) [] ∧
    stocked.params.value 1 = some 20 ∧ stocked.params.value 13 = some 0 ∧ stocked.params.value 0 = none ∧
    stocked.params.value 14 = none :=
  ⟨ask_taking _ _ _ rfl, asksOf_names _ _, ask_taking _ _ _ rfl, by decide, by decide, ask_taking _ _ _ rfl,
    ask_taking _ _ _ rfl, by decide, by decide, by decide, by decide⟩

theorem witness_AlertListReportsSlots :
    (ask (sounding 1) .alertList [29]).Taking .alertList 0 (asking .alertList [29]) [] ∧ (29#8 : Byte).toNat < 30 ∧
    (ask (sounding 1) .alertList [30]).Taking .alertList 0 (asking .alertList [30]) [] ∧ 30 ≤ (30#8 : Byte).toNat :=
  ⟨ask_taking _ _ _ rfl, by decide, ask_taking _ _ _ rfl, by decide⟩

theorem witness_ConfigSetWritesOneParameter :
    (∀ payload, lengthOk .configSet payload = true →
      (ask stocked .configSet payload).Taking .configSet 0 (asking .configSet payload) []) ∧
    (∀ payload, ((ask stocked .configSet payload).rights 0).c = true) ∧
    stocked.params.write 9 200 = some { stocked.params with senseLow := 200 } ∧ stocked.params.write 9 201 = none ∧
    stocked.params.write 4 24 = some { stocked.params with quota := 24 } ∧ stocked.params.write 4 25 = none ∧
    stocked.params.write 8 0 = some { stocked.params with lineEnable := false } ∧ stocked.params.lineEnable = true ∧
    stocked.params.write 14 0 = none ∧
    (Params.write { stocked.params with lineEnable := false } 8 1) = some stocked.params :=
  ⟨fun _ h => ask_taking _ _ _ h, fun _ => rfl, by decide, by decide, by decide, by decide, by decide, by decide,
    by decide, by decide⟩

theorem witness_GuardedFieldsChangeOnlyByTheirCommands :
    leaves (exec .configSet (ask stocked .configSet [2, 0, 0])) (fun t => decide (t.params ≠ stocked.params)) = true ∧
    leaves (exec (.resetEnd .high .high) { State.reset with inReset := true }) (fun t => decide (t.params.profile = 3))
      = true ∧
    leaves (exec .flashClockTick State.reset) (fun t => decide (t.flashPhase = 1)) = true := by decide

theorem witness_RecordsKeepTheirIdentity :
    (sounding 100).TagsDistinct ∧ (sounding 100).SlotsByOrigin ∧ (sounding 100).record 0 = some recordA ∧
    recordA.origin ≠ .internal ∧
    leaves (exec .tick (sounding 100)) (fun t =>
      decide (t.record 0 = some { recordA with deadline := some 9999 }) &&
        decide ((t.slot 0).generation = ((sounding 100).slot 0).generation)) = true :=
  ⟨by unfold State.TagsDistinct; decide, by unfold State.SlotsByOrigin; decide, by decide, by decide, by decide⟩

/-- Record A sounding, with a tick waiting. -/
def ticking : State := { sounding 100 with pending := [.tick] }

theorem ticking_steps : ∃ t, step ticking = .next t := ⟨_, rfl⟩

theorem witness_ResetStateIsSound :
    (∀ p, (State.reset.port p).selectLow = false) ∧ State.reset.clkin = true ∧ State.reset.pending = [] := by decide

theorem witness_StepKeepsArrivalList : ticking.ArrivalExact ∧ ∃ t, step ticking = .next t :=
  ⟨sounding_arrival, ticking_steps⟩

theorem ticking_play (owner : Handle) (now : Sounding) (h : ticking.play = .playing owner now) :
    owner = at0 0 ∧ now = { pattern := 2, index := 0, timeLeft := 100, tone := 10, level := 3 } := by
  have h' : (sounding 100).play = .playing owner now := h
  simp only [sounding, State.setPlay_play, Play.playing.injEq] at h'
  exact ⟨h'.1.symm, h'.2.symm⟩

theorem ticking_owner : ticking.OwnerStands := by
  intro owner now h
  obtain ⟨rfl, _⟩ := ticking_play owner now h
  decide

theorem ticking_entries : ticking.EntriesInRange := by
  intro n hn
  have h : (ticking.entry n).body = .empty ∨ (ticking.entry n).body = .ready layoutA := by revert n; decide
  rcases h with h | h <;> rw [h]
  · trivial
  · unfold Layout.InRange; decide

theorem ticking_counts : ticking.CountsExact := ⟨by decide, by decide, by unfold State.BuiltInsStand; decide⟩

theorem witness_StepKeepsReferenceCounts : ticking.CountsExact ∧ ∃ t, step ticking = .next t :=
  ⟨ticking_counts, ticking_steps⟩

theorem witness_StepKeepsOwner_eligible : ticking.OwnerStands ∧ ticking.IdleSilent ∧ ∃ t, step ticking = .next t :=
  ⟨ticking_owner, fun h => absurd (show (sounding 100).play = .idle from h) (by decide), ticking_steps⟩

theorem witness_StepKeepsOwner_pattern :
    ticking.PlaySound ∧ ticking.OwnerStands ∧ ticking.CountsExact ∧ ticking.EntriesInRange ∧
      ∃ t, step ticking = .next t := by
  refine ⟨⟨?_, ?_⟩, ticking_owner, ticking_counts, ticking_entries, ticking_steps⟩
  · intro owner now h
    obtain ⟨rfl, rfl⟩ := ticking_play owner now h
    exact ⟨recordA, layoutA, by decide, by decide, by decide, by decide⟩
  · intro now h
    have : now = { pattern := 2, index := 0, timeLeft := 100, tone := 10, level := 3 } := by
      have h' : (sounding 100).play.now = some now := h
      simp only [sounding, State.setPlay_play, Play.now, Option.some.injEq] at h'
      exact h'.symm
    subst this; decide

theorem witness_StepKeepsDrive :
    ticking.DriveFollows ∧ ticking.drive = some { frequency := 1200, duty := 100 } ∧
    ticking.play.now = some { pattern := 2, index := 0, timeLeft := 100, tone := 10, level := 3 } ∧
    ticking.line.isShort = false ∧ State.reset.DriveFollows ∧ State.reset.play.now = none ∧ State.reset.drive = none ∧
    ticking.clkin = true ∧ ticking.inReset = false ∧ (∃ t, exec .tick ticking = .next t) ∧
    ∃ t, step ticking = .next t :=
  ⟨by unfold State.DriveFollows; decide, by decide, by decide, by decide, by unfold State.DriveFollows; decide, rfl, rfl,
    by decide, by decide, ⟨_, rfl⟩, ticking_steps⟩

theorem witness_StepKeepsLoadsBounded : ticking.LoadsBounded ∧ ∃ t, step ticking = .next t :=
  ⟨by unfold State.LoadsBounded; decide, ticking_steps⟩

theorem witness_StepKeepsEventQueues : ticking.QueuesSound ∧ ∃ t, step ticking = .next t := by
  refine ⟨fun p => ⟨⟨[], by decide, by simp, .inl ?_⟩, ?_⟩, ticking_steps⟩
  · revert p; decide
  · have : (ticking.port p).transaction = none := by revert p; decide
    intro t ht; rw [this] at ht; simp at ht

theorem witness_StepKeepsStoreDivided :
    ticking.BuiltInsStand ∧ ticking.StoreDivided ∧ ticking.store.wf = true ∧ ∃ t, step ticking = .next t := by
  refine ⟨by unfold State.BuiltInsStand; decide, ⟨ticking_entries, ?_, ?_⟩, by decide, ticking_steps⟩
  · intro k
    have h : ticking.reserved ++ ticking.free = [{ start := 0, length := 2 }, { start := 2, length := 1022 }] := by decide
    rw [h]
    by_cases h1 : k < 2
    · simp [Extent.covers, h1, Config.stepWords, show k < 1024 by omega, show ¬ 2 ≤ k by omega]
    · by_cases h2 : k < 1024 <;> simp [Extent.covers, h1, h2, Config.stepWords]
  · unfold FreeListSound; decide

theorem witness_StepKeepsRecordsSound :
    ticking.RecordsSound ∧ ticking.params.InRange ∧ ∃ t, step ticking = .next t :=
  ⟨by unfold State.RecordsSound Record.InRange Record.DeadlineStands; decide, by unfold Params.InRange; decide,
    ticking_steps⟩

theorem witness_StepKeepsCauses :
    ticking.CausesStand ∧ ticking.SlotsByOrigin ∧ ticking.TagsDistinct ∧ ticking.LineSound ∧
      ∃ t, step ticking = .next t :=
  ⟨by unfold State.CausesStand; decide, by unfold State.SlotsByOrigin; decide, by unfold State.TagsDistinct; decide,
    ⟨by show (0 : Nat) ≤ 3; decide, by decide⟩, ticking_steps⟩

theorem witness_StepKeepsTimersInRange :
    ticking.TimersSound ∧ ticking.PortsSound ∧ ∃ t, step ticking = .next t := by
  refine ⟨⟨by unfold Params.InRange; decide, rfl, rfl, rfl, by decide, by decide, by decide, by decide, by decide⟩,
    fun p => ⟨?_, ?_⟩, ticking_steps⟩
  · have : (ticking.port p).transaction = none := by revert p; decide
    intro t ht; rw [this] at ht; simp at ht
  · revert p; decide

end Sys2Proof.Tests
end

