-- ==== Sys2Proof/Proofs/AcknowledgeAll.lean ====
section
/-! PROOF. Acknowledging every occupied record (R11, R94): one acknowledgement, part by part of the state; the fold over
the Arrival List; the silence that it leaves to the Output Arbiter; and the two commands that act so. -/

namespace Sys2Proof.Machine

/-! ### One slot acknowledged (R10) -/

/-- What an acknowledgement makes of a slot (R10). -/
def Slot.acked (x : Slot) (who : AckParty) : Slot :=
  match x.record with
  | none => x
  | some r =>
    match r.state with
    | .alerting => { x with record := some { r with state := .acknowledged who, deadline := none, muted := false } }
    | .returned => { generation := x.generation + 1, record := none }
    | .acknowledged _ => x

/-- The slot holds a RETURNED record, which an acknowledgement frees (R10). -/
def Slot.returned (x : Slot) : Bool := x.record.any fun r => decide (r.state = .returned)

/-- All that one acknowledgement does, whatever the slot holds (R10, R12). -/
theorem State.acknowledge_parts (s : State) (i : SlotNo) (who : AckParty) :
    s.acknowledge i who =
      { s with
        slots := s.slots.set i ((s.slot i).acked who)
        arrival := if (s.slot i).returned then s.arrival.erase i else s.arrival
        directory := (s.record i).elim s.directory fun r =>
          if r.state = .returned then (s.dropRef r.pattern).directory else s.directory
        ports := ((s.ackEvent who i).toList.foldl State.post s).ports } := by
  have unchanged : s.slots.set i (s.slot i) = s.slots := by simp [State.slot]
  cases hr : s.record i with
  | none =>
    have hr' : (s.slot i).record = none := hr
    simp [State.acknowledge, State.ackEvent, Slot.acked, Slot.returned, hr, hr', unchanged]
  | some r =>
    have hr' : (s.slot i).record = some r := hr
    rw [State.acknowledge_eq s i r who hr]
    cases hst : r.state with
    | alerting => simp [State.ackEvent, Slot.acked, Slot.returned, hr, hr', hst, State.post, State.setRecord,
        State.setSlot, State.port]
    | returned =>
      simp [State.freeRecord_eq s i r who.source hr, State.ackEvent, Slot.acked, Slot.returned, hr, hr', hst,
        State.post, State.dropRef, State.setEntry]
    | acknowledged _ => simp [State.ackEvent, Slot.acked, Slot.returned, hr, hr', hst, unchanged]

theorem State.slot_acknowledge (s : State) (i j : SlotNo) (who : AckParty) :
    (s.acknowledge i who).slot j = if i = j then (s.slot i).acked who else s.slot j := by
  rw [State.acknowledge_parts]
  exact State.slot_setSlot s i j _

/-- An acknowledgement leaves every other slot alone. -/
theorem State.slot_acknowledge_of_ne (s : State) {i j : SlotNo} (who : AckParty) (h : i ≠ j) :
    (s.acknowledge i who).slot j = s.slot j := by
  rw [State.slot_acknowledge, if_neg h]

/-- An acknowledgement takes a RETURNED record's slot, and no other, off the Arrival List (R12). -/
theorem State.arrival_acknowledge (s : State) (i : SlotNo) (who : AckParty) (h : s.arrival.Nodup) :
    (s.acknowledge i who).arrival = s.arrival.filter fun j => decide (j ≠ i) || !(s.slot j).returned := by
  rw [State.acknowledge_parts]
  dsimp only
  split
  · rename_i hret
    rw [h.erase_eq_filter]
    refine List.filter_congr fun j _ => ?_
    by_cases hj : j = i <;> simp [hj, hret]
  · rename_i hret
    refine (List.filter_eq_self.mpr fun j _ => ?_).symm
    by_cases hj : j = i <;> simp [hj, hret]

/-- An acknowledgement lowers the reference count of a RETURNED record's pattern by one (R12, R83). -/
theorem State.entry_acknowledge (s : State) (i : SlotNo) (who : AckParty) (n : PatNo) :
    (s.acknowledge i who).entry n =
      { s.entry n with
        refs := (s.entry n).refs -
          ((s.record i).any fun r => decide (r.pattern = n) && decide (r.state = .returned)).toNat } := by
  rw [State.acknowledge_parts]
  cases hr : s.record i with
  | none => rfl
  | some r =>
    by_cases hret : r.state = .returned
    · have hdrop := State.entry_dropRef s r.pattern n
      by_cases hn : r.pattern = n <;> simp_all [State.entry]
    · simp [State.entry, hret]

/-- Posting acts on the ports alone. -/
theorem State.ports_foldl_post_congr {s t : State} (h : s.ports = t.ports) (es : List Event) :
    (es.foldl State.post s).ports = (es.foldl State.post t).ports := by
  induction es generalizing s t with
  | nil => exact h
  | cons e es ih => exact ih (by simp only [State.post, State.port, h])

theorem State.ports_acknowledge (s : State) (i : SlotNo) (who : AckParty) :
    (s.acknowledge i who).ports = ((s.ackEvent who i).toList.foldl State.post s).ports := by
  rw [State.acknowledge_parts]

/-- The event of an acknowledgement depends on the slot alone (R4, R10). -/
theorem State.ackEvent_congr {s t : State} {i : SlotNo} (h : s.slot i = t.slot i) (who : AckParty) :
    s.ackEvent who i = t.ackEvent who i := by
  simp only [State.ackEvent, State.record, State.about, h]

theorem State.SameElsewhere.trans {s t u : State} (h : s.SameElsewhere t) (h' : t.SameElsewhere u) :
    s.SameElsewhere u := by
  unfold State.SameElsewhere at *
  rw [← h, ← h']

theorem State.sameElsewhere_acknowledge (s : State) (i : SlotNo) (who : AckParty) :
    (s.acknowledge i who).free = s.free ∧ s.SameElsewhere (s.acknowledge i who) := by
  rw [State.acknowledge_parts]
  exact ⟨rfl, rfl⟩

/-! ### The slots of a list acknowledged in turn (R11) -/

section Fold

variable {i : SlotNo} {l : List SlotNo} (s : State) (who : AckParty)

/-- The slots of a list acknowledged in turn. -/
def State.acknowledgeList (l : List SlotNo) : State := l.foldl (fun t i => t.acknowledge i who) s

theorem State.acknowledgeAll_eq : s.acknowledgeAll who = s.acknowledgeList who s.arrival := rfl

theorem State.acknowledgeList_cons (i : SlotNo) (l : List SlotNo) :
    s.acknowledgeList who (i :: l) = (s.acknowledge i who).acknowledgeList who l := rfl

theorem State.slot_acknowledge_of_mem {j : SlotNo} (hl : (i :: l).Nodup) (hj : j ∈ l) :
    (s.acknowledge i who).slot j = s.slot j :=
  s.slot_acknowledge_of_ne who fun h => (List.nodup_cons.mp hl).1 (h ▸ hj)

theorem State.slot_acknowledgeList (hl : l.Nodup) (j : SlotNo) :
    (s.acknowledgeList who l).slot j = if j ∈ l then (s.slot j).acked who else s.slot j := by
  induction l generalizing s with
  | nil => rfl
  | cons i l ih =>
    rw [State.acknowledgeList_cons, ih _ hl.of_cons]
    by_cases hj : j ∈ l
    · rw [if_pos hj, if_pos (List.mem_cons_of_mem i hj), s.slot_acknowledge_of_mem who hl hj]
    · by_cases hij : i = j
      · subst hij; simp [hj, State.slot_acknowledge]
      · simp [hj, Ne.symm hij, s.slot_acknowledge_of_ne who hij]

theorem State.arrival_acknowledgeList (hl : l.Nodup) (h : s.arrival.Nodup) :
    (s.acknowledgeList who l).arrival = s.arrival.filter fun j => decide (j ∉ l) || !(s.slot j).returned := by
  induction l generalizing s with
  | nil => simp [State.acknowledgeList]
  | cons i l ih =>
    have hi := s.arrival_acknowledge i who h
    rw [State.acknowledgeList_cons, ih _ hl.of_cons (hi ▸ h.filter _), hi, List.filter_filter]
    refine List.filter_congr fun j _ => ?_
    have hil : i ∉ l := (List.nodup_cons.mp hl).1
    by_cases hj : j = i
    · simp [hj, hil]
    · simp [hj, s.slot_acknowledge_of_ne who (Ne.symm hj)]

theorem State.entry_acknowledgeList (hl : l.Nodup) (n : PatNo) :
    (s.acknowledgeList who l).entry n =
      { s.entry n with
        refs := (s.entry n).refs -
          l.countP fun i => (s.record i).any fun r => decide (r.pattern = n) && decide (r.state = .returned) } := by
  induction l generalizing s with
  | nil => rfl
  | cons i l ih =>
    have hcount : ∀ test : Record → Bool,
        l.countP (fun j => ((s.acknowledge i who).record j).any test) = l.countP fun j => (s.record j).any test :=
      fun test => List.countP_congr fun j hj => by simp only [State.record, s.slot_acknowledge_of_mem who hl hj]
    rw [State.acknowledgeList_cons, ih _ hl.of_cons, hcount, State.entry_acknowledge, List.countP_cons]
    rw [Nat.sub_sub, Nat.add_comm, Bool.toNat]
    simp only [Bool.cond_eq_ite]

theorem State.ports_acknowledgeList (hl : l.Nodup) :
    (s.acknowledgeList who l).ports = ((l.filterMap (s.ackEvent who)).foldl State.post s).ports := by
  induction l generalizing s with
  | nil => rfl
  | cons i l ih =>
    have hevents : l.filterMap ((s.acknowledge i who).ackEvent who) = l.filterMap (s.ackEvent who) :=
      List.filterMap_congr fun j hj => State.ackEvent_congr (s.slot_acknowledge_of_mem who hl hj) who
    have hsplit : (i :: l).filterMap (s.ackEvent who) = (s.ackEvent who i).toList ++ l.filterMap (s.ackEvent who) := by
      rw [List.filterMap_cons]; cases s.ackEvent who i <;> rfl
    rw [State.acknowledgeList_cons, ih _ hl.of_cons, hevents, hsplit, List.foldl_append]
    exact State.ports_foldl_post_congr (s.ports_acknowledge i who) _

theorem State.sameElsewhere_acknowledgeList (l : List SlotNo) :
    (s.acknowledgeList who l).free = s.free ∧ s.SameElsewhere (s.acknowledgeList who l) := by
  induction l generalizing s with
  | nil => exact ⟨rfl, rfl⟩
  | cons i l ih =>
    obtain ⟨hfree, hsame⟩ := s.sameElsewhere_acknowledge i who
    obtain ⟨hfree', hsame'⟩ := ih (s.acknowledge i who)
    exact ⟨hfree'.trans hfree, hsame.trans hsame'⟩

end Fold

/-! ### The whole table (R11, R19) -/

/-- Where the Arrival List is exact, a count of records along it is a count over the thirty slots (R19). -/
theorem State.ArrivalExact.countP_eq {s : State} (h : s.ArrivalExact) (test : Record → Bool) :
    s.arrival.countP (fun i => (s.record i).any test) = (List.finRange 30).countP fun i => (s.record i).any test := by
  obtain ⟨hnodup, hmem⟩ := h
  have hperm : s.arrival.Perm ((List.finRange 30).filter fun i => (s.record i).isSome) :=
    (List.perm_ext_iff_of_nodup hnodup ((List.nodup_finRange 30).filter _)).mpr fun i => by simp [hmem]
  rw [hperm.countP_eq, List.countP_filter]
  refine List.countP_congr fun i _ => ?_
  cases s.record i <;> simp

/-- The fold over an exact Arrival List acknowledges every occupied record (R11). -/
theorem State.ArrivalExact.allAcknowledged {s : State} (h : s.ArrivalExact) (who : AckParty) :
    s.AllAcknowledged who (s.acknowledgeAll who) := by
  have ⟨hnodup, hmem⟩ := h
  rw [State.acknowledgeAll_eq]
  refine ⟨fun i => ?_, ?_, fun n => ?_, s.ports_acknowledgeList who hnodup, s.sameElsewhere_acknowledgeList who _⟩
  · rw [s.slot_acknowledgeList who hnodup]
    cases hr : s.record i with
    | none => rw [if_neg (by simp [hmem, hr])]
    | some r =>
      have hr' : (s.slot i).record = some r := hr
      rw [if_pos (by simp [hmem, hr])]
      cases hst : r.state <;> simp [Slot.acked, hr', hst]
  · rw [s.arrival_acknowledgeList who hnodup hnodup]
    refine List.filter_congr fun i hi => ?_
    cases hr : (s.slot i).record <;> simp [hi, Slot.returned, State.record, hr]
  · rw [s.entry_acknowledgeList who hnodup, h.countP_eq]
    rfl

/-! ### Nothing left to sound (R28, R35, R36, R42) -/

/-- Once every record is acknowledged none is ALERTING, so none is eligible to sound (R28). -/
theorem State.AllAcknowledged.eligible_eq_false {s t : State} {who : AckParty} (h : s.AllAcknowledged who t)
    (i : SlotNo) : t.eligible i = false := by
  obtain ⟨hslots, -⟩ := h
  have hi := hslots i
  rw [State.eligible, State.record, hi]
  cases hr : s.record i with
  | none =>
    have hr' : (s.slot i).record = none := hr
    simp [hr']
  | some r =>
    have hr' : (s.slot i).record = some r := hr
    cases hst : r.state <;> simp [hr', hst, Record.eligible, Record.isAlerting]

theorem State.order_eq_nil {s : State} (h : ∀ i, s.eligible i = false) : s.order = [] := by
  have hnone : s.arrival.filter s.eligible = [] := List.filter_eq_nil_iff.mpr fun i _ => by simp [h i]
  rw [State.order, hnone]
  rfl

theorem State.startHead_of_order_nil {s : State} (h : s.order = []) : s.startHead = s := by
  have hhead : s.head = none := by rw [State.head, h]; rfl
  simp [State.startHead, State.startOnce, State.afterLoad, hhead]

/-- With no record eligible, a decision after an acknowledgement leaves none to sound; the Play Context is IDLE, its owner
cut, or the tail it was (R35, R36, R42). -/
theorem State.silent_after_arbitrate {s : State} (h : ∀ i, s.eligible i = false) :
    (s.arbitrate .byCut).order = [] ∧
      ((s.arbitrate .byCut).play = .idle ∨ ∃ now, s.play = .tail now ∧ (s.arbitrate .byCut).play = .tail now) := by
  have horder := State.order_eq_nil h
  have hcut : s.cut.order = [] := (s.order_setPlay .idle).trans horder
  cases hplay : s.play with
  | idle =>
    have hstays : s.arbitrate .byCut = s := by
      simp only [State.arbitrate, hplay, State.startHead_of_order_nil horder]
    rw [hstays]
    exact ⟨horder, .inl hplay⟩
  | playing owner now =>
    have hleft : s.ownerStands owner = false := by simp [State.ownerStands, h]
    have hcuts : s.arbitrate .byCut = s.cut := by
      simp [State.arbitrate, hplay, hleft, State.startHead_of_order_nil hcut]
    rw [hcuts]
    exact ⟨hcut, .inl (s.setPlay_play .idle)⟩
  | tail now =>
    have hgoesOn : s.arbitrate .byCut = s := by
      simp [State.arbitrate, hplay, State.arbitrateTail, State.headUrgent_iff, horder]
    rw [hgoesOn]
    exact ⟨horder, .inr ⟨now, rfl, hplay⟩⟩

theorem State.SameElsewhere.play_eq {s t : State} (h : s.SameElsewhere t) : t.play = s.play := by
  unfold State.SameElsewhere at h
  rw [← h]

/-! ### The two commands -/

/-- ACK_ALL carried out: its whole answer (R11, R136). -/
theorem exec_ackAll_of_taking {s : State} {p : Port} {r : Request} {rest : List Request}
    (h : s.Taking .ackAll p r rest) (ha : (s.rights p).a = true) :
    exec .ackAll s = .next
      ((((s.removeRequest p).acknowledgeAll (.port p)).arbitrate .byCut).answered p r
        [byte (s.countRecords Record.isAlerting), byte (s.countRecords fun q => decide (q.state = .returned))]) :=
  congrArg Host.Outcome.next (State.takeRequest_served h Rights.a ha _ serveAckAll fun _ _ _ => rfl)

/-- An accepted ACK press, with panel enable on (R93, R94). -/
theorem exec_panelAck_of_press {s : State} (h : s.panel.ack.accepted = some .press)
    (he : s.params.panelEnable = true) :
    exec .panelAck s = .next
      ((State.acknowledgeAll { s with panel := { s.panel with ack := s.panel.ack.handedOn } } .panel).arbitrate
        .byCut) := by
  change execPanelAck s = _
  simp only [execPanelAck, if_pos h, if_pos he]

/-- Settles O9: both commands are the fold over the Arrival List and the Arbiter's decision on what it leaves. -/
theorem everyRecordAcknowledged : Obligations.EveryRecordAcknowledged := by
  refine ⟨fun s p r rest hexact htaking ha => ?_, fun s hexact hpress henable => ?_⟩
  · have hexact' : (s.removeRequest p).ArrivalExact := hexact
    refine ⟨_, hexact'.allAcknowledged (.port p), ?_⟩
    rw [exec_ackAll_of_taking htaking ha, State.countRecords, State.countRecords, hexact.countP_eq,
      hexact.countP_eq]
    rfl
  · have hexact' : State.ArrivalExact { s with panel := { s.panel with ack := s.panel.ack.handedOn } } := hexact
    have hall := hexact'.allAcknowledged .panel
    have ⟨_, _, _, _, _, hsame⟩ := hall
    obtain ⟨horder, hplay⟩ := State.silent_after_arbitrate hall.eligible_eq_false
    rw [hsame.play_eq] at hplay
    exact ⟨_, _, hall, exec_panelAck_of_press hpress henable, rfl, horder, hplay⟩

end Sys2Proof.Machine
end

