-- ==== Sys2Proof/Proofs/SoundingOrder.lean ====
section
/-! PROOF. The Sounding Order (R29): ranking a list of slots one by one, from its head on, keeps its members and stands
them by priority and then by place; the order is the eligible part of the Arrival List ranked so. -/

namespace Sys2Proof.Machine

/-! ### A list of slots ranked one by one -/

/-- The slots of a list, from its head on, each inserted among those before it. -/
def rankAll (prio : SlotNo → Nat) (l : List SlotNo) : List SlotNo :=
  l.foldl (fun ranked i => insertRanked prio i ranked) []

/-- The Sounding Order is the eligible part of the Arrival List, ranked (R29). -/
theorem State.order_eq_rankAll (s : State) : s.order = rankAll s.priority (s.arrival.filter s.eligible) := rfl

section
variable (prio : SlotNo → Nat)

@[simp] theorem rankAll_nil : rankAll prio [] = [] := rfl

@[simp] theorem rankAll_concat (l : List SlotNo) (i : SlotNo) :
    rankAll prio (l ++ [i]) = insertRanked prio i (rankAll prio l) := by
  simp [rankAll]

@[simp] theorem mem_rankAll {l : List SlotNo} {j : SlotNo} : j ∈ rankAll prio l ↔ j ∈ l := by
  induction l using List.reverseRecOn with
  | nil => rw [rankAll_nil]
  | append_singleton l i ih => rw [rankAll_concat, mem_insertRanked, ih, List.mem_append, List.mem_singleton, or_comm]

theorem nodup_rankAll {l : List SlotNo} (h : l.Nodup) : (rankAll prio l).Nodup := by
  induction l using List.reverseRecOn with
  | nil => exact h
  | append_singleton l i ih =>
    obtain ⟨hi, hl⟩ := List.nodup_cons.mp ((List.perm_append_singleton i l).nodup_iff.mp h)
    rw [rankAll_concat]
    exact nodup_insertRanked prio i _ (ih hl) (by rwa [mem_rankAll])

/-- Where each slot of a list stands before those after it, the ranking keeps that among slots of equal priority, since
the later slot is inserted after every equal one. -/
theorem pairwise_rankAll {before : SlotNo → SlotNo → Prop} {l : List SlotNo} (h : l.Pairwise before) :
    (rankAll prio l).Pairwise (fun j k => prio k < prio j ∨ (prio j = prio k ∧ before j k)) := by
  induction l using List.reverseRecOn with
  | nil => exact .nil
  | append_singleton l i ih =>
    obtain ⟨hl, -, hbefore⟩ := List.pairwise_append.mp h
    rw [rankAll_concat]
    refine pairwise_insertRanked prio before i _ (ih hl) fun j hj => ?_
    exact hbefore j ((mem_rankAll prio).mp hj) i (List.mem_singleton_self i)

end

/-- The members of a list without duplicates stand in it by their index. -/
theorem pairwise_idxOf_of_nodup {l : List SlotNo} (h : l.Nodup) :
    l.Pairwise (fun i j => l.idxOf i < l.idxOf j) := by
  rw [List.pairwise_iff_getElem]
  intro m n hm hn hlt
  rwa [h.idxOf_getElem m hm, h.idxOf_getElem n hn]

/-! ### The Sounding Order -/

/-- Where the Arrival List is exact, the Sounding Order holds the eligible slots and no others (R29). -/
theorem State.ArrivalExact.mem_order_iff {s : State} (h : s.ArrivalExact) (i : SlotNo) :
    i ∈ s.order ↔ s.eligible i = true := by
  obtain ⟨-, hmem⟩ := h
  rw [s.order_eq_rankAll, mem_rankAll, List.mem_filter, hmem, and_iff_right_iff_imp]
  intro heligible
  obtain ⟨r, hr, -⟩ := (s.eligible_iff i).mp heligible
  rw [hr, Option.isSome_some]

/-- Settles O20: the Arrival List stands by its index, so does its eligible part, and the ranking keeps that within each
priority. -/
theorem soundingOrderIsRanked : Obligations.SoundingOrderIsRanked := by
  intro s hexact
  have ⟨hnodup, _⟩ := hexact
  refine ⟨nodup_rankAll s.priority (hnodup.filter s.eligible), fun i => ?_, ?_⟩
  · rw [hexact.mem_order_iff, s.eligible_iff]
  · exact pairwise_rankAll s.priority ((pairwise_idxOf_of_nodup hnodup).filter s.eligible)

end Sys2Proof.Machine
end

