-- ==== Sys2Proof/Proofs/ButtonDebounce.lean ====
section
/-! PROOF. The debounce of a button (R92): Table 5.1 row by row, and the count of twenty consecutive samples that ends in
an accepted change. -/

namespace Sys2Proof.Machine

/-- Ticks come exactly while CLKIN is present and no reset lasts (R162). -/
theorem State.ticking_iff (s : State) : s.ticking = true ↔ s.clkin = true ∧ s.inReset = false := by
  simp [State.ticking]

/-! ### The rows of Table 5.1 -/

section Rows
variable {b : Button}

theorem Button.sample_high_of_released (h : b.state = .released) : b.sample .high = b := by
  cases b; cases h; rfl

theorem Button.sample_low_of_released (h : b.state = .released) :
    b.sample .low = { b with state := .pressing, count := 1 } := by
  cases b; cases h; rfl

theorem Button.sample_low_of_pressing (h : b.state = .pressing) (hcount : b.count < 19) :
    b.sample .low = { b with count := b.count + 1 } := by
  cases b; cases h; exact if_pos hcount

theorem Button.sample_low_accepts_press (h : b.state = .pressing) (hcount : b.count = 19) :
    b.sample .low = { state := .pressed, count := 0, accepted := some .press } := by
  cases b; cases h; exact if_neg hcount.not_lt

theorem Button.sample_high_of_pressing (h : b.state = .pressing) :
    b.sample .high = { b with state := .released, count := 0 } := by
  cases b; cases h; rfl

theorem Button.sample_low_of_pressed (h : b.state = .pressed) : b.sample .low = b := by
  cases b; cases h; rfl

theorem Button.sample_high_of_pressed (h : b.state = .pressed) :
    b.sample .high = { b with state := .releasing, count := 1 } := by
  cases b; cases h; rfl

theorem Button.sample_high_of_releasing (h : b.state = .releasing) (hcount : b.count < 19) :
    b.sample .high = { b with count := b.count + 1 } := by
  cases b; cases h; exact if_pos hcount

theorem Button.sample_high_accepts_release (h : b.state = .releasing) (hcount : b.count = 19) :
    b.sample .high = { state := .released, count := 0, accepted := some .release } := by
  cases b; cases h; exact if_neg hcount.not_lt

theorem Button.sample_low_of_releasing (h : b.state = .releasing) :
    b.sample .low = { b with state := .pressed, count := 0 } := by
  cases b; cases h; rfl

end Rows

/-! ### Twenty consecutive samples -/

/-- What counts up by one at each sample from the first to the nineteenth, and is done at the twentieth, is after n
samples in a row counting at n, or done. -/
theorem iterate_of_counts_to_twenty {f : Button → Button} {b done : Button} (counting : Nat → Button)
    (hfirst : f b = counting 1) (hnext : ∀ n, n < 19 → f (counting n) = counting (n + 1))
    (hlast : f (counting 19) = done) {n : Nat} (hpos : 1 ≤ n) (hle : n ≤ 20) :
    f^[n] b = if n < 20 then counting n else done := by
  induction n, hpos using Nat.le_induction with
  | base => exact hfirst
  | succ n _ ih =>
    rw [Function.iterate_succ_apply', ih (by omega), if_pos (by omega)]
    obtain hbelow | rfl : n < 19 ∨ n = 19 := by omega
    · rw [if_pos (by omega), hnext n hbelow]
    · exact hlast

/-- From RELEASED the twentieth consecutive low sample accepts a press, and none before it (R92). -/
theorem Button.sample_low_iterate {b : Button} (h : b.state = .released) (haccepted : b.accepted = none) {n : Nat}
    (hpos : 1 ≤ n) (hle : n ≤ 20) :
    (fun x : Button => x.sample .low)^[n] b =
      if n < 20 then { state := .pressing, count := n, accepted := none }
      else { state := .pressed, count := 0, accepted := some .press } :=
  iterate_of_counts_to_twenty (fun n => { state := .pressing, count := n, accepted := none })
    (by rw [Button.sample_low_of_released h, haccepted]) (fun _ hbelow => Button.sample_low_of_pressing rfl hbelow)
    (Button.sample_low_accepts_press rfl rfl) hpos hle

/-- From PRESSED the twentieth consecutive high sample accepts a release, and none before it (R92). -/
theorem Button.sample_high_iterate {b : Button} (h : b.state = .pressed) (haccepted : b.accepted = none) {n : Nat}
    (hpos : 1 ≤ n) (hle : n ≤ 20) :
    (fun x : Button => x.sample .high)^[n] b =
      if n < 20 then { state := .releasing, count := n, accepted := none }
      else { state := .released, count := 0, accepted := some .release } :=
  iterate_of_counts_to_twenty (fun n => { state := .releasing, count := n, accepted := none })
    (by rw [Button.sample_high_of_pressed h, haccepted]) (fun _ hbelow => Button.sample_high_of_releasing rfl hbelow)
    (Button.sample_high_accepts_release rfl rfl) hpos hle

/-! ### The command -/

/-- DEBOUNCE_SAMPLE while ticks come: each button takes its own sample, and nothing else changes (R92). -/
theorem exec_debounceSample_of_ticking {s : State} (h : s.ticking = true) (ackPin silencePin testPin : Level) :
    exec (.debounceSample ackPin silencePin testPin) s = .next
      { s with panel :=
        { ack := s.panel.ack.sample ackPin, silence := s.panel.silence.sample silencePin,
          test := s.panel.test.sample testPin } } :=
  congrArg Host.Outcome.next (if_pos h)

/-- Settles O7: the command samples each button, a sample is a row of Table 5.1, and the rows of one level in a row count
to twenty. -/
theorem buttonsAreDebounced : Obligations.ButtonsAreDebounced := by
  refine ⟨fun s ackPin silencePin testPin hclkin hreset => ?_, fun b => ?_, fun b n h _ haccepted hpos hle => ?_,
    fun b n h _ haccepted hpos hle => ?_⟩
  · exact exec_debounceSample_of_ticking (s.ticking_iff.mpr ⟨hclkin, hreset⟩) ackPin silencePin testPin
  · exact ⟨Button.sample_high_of_released, Button.sample_low_of_released, Button.sample_low_of_pressing,
      Button.sample_low_accepts_press, Button.sample_high_of_pressing, Button.sample_low_of_pressed,
      Button.sample_high_of_pressed, Button.sample_high_of_releasing, Button.sample_high_accepts_release,
      Button.sample_low_of_releasing⟩
  · exact Button.sample_low_iterate h haccepted hpos hle
  · exact Button.sample_high_iterate h haccepted hpos hle

end Sys2Proof.Machine
end

