-- ==== Sys2Proof/Proofs/LampIndication.lean ====
section
/-! PROOF. The lamps (R96 to R101): which of the four indications the records that name a lamp give it, what stands
before the indication on the output, and the phase of the flash clock. -/

namespace Sys2Proof.Machine

/-! ### The records considered (R97) -/

/-- Some occupied record whose lamp mask includes the lamp meets the test. -/
def State.NamedBy (s : State) (k : Lamp) (test : Record → Prop) : Prop :=
  ∃ i, ∃ r ∈ s.record i, r.lamps.getLsbD k.val = true ∧ test r

/-- Some record considered for the lamp is ALERTING. -/
def State.NamedByAlerting (s : State) (k : Lamp) : Prop := s.NamedBy k (fun r => r.state = .alerting)

/-- Some record considered for the lamp is RETURNED. -/
def State.NamedByReturned (s : State) (k : Lamp) : Prop := s.NamedBy k (fun r => r.state = .returned)

/-- Some record is considered for the lamp. -/
def State.NamedByAny (s : State) (k : Lamp) : Prop := s.NamedBy k (fun _ => True)

theorem State.namedBy_iff (s : State) (k : Lamp) (test : Record → Prop) :
    s.NamedBy k test ↔ ∃ r ∈ s.considered k, test r := by
  simp only [State.NamedBy, State.considered, List.mem_filterMap, List.mem_finRange, true_and, Option.filter_eq_some_iff,
    Option.mem_def]
  constructor
  · rintro ⟨i, r, hr, hlamp, htest⟩
    exact ⟨r, ⟨i, hr, hlamp⟩, htest⟩
  · rintro ⟨r, ⟨i, hr, hlamp⟩, htest⟩
    exact ⟨i, r, hr, hlamp, htest⟩

theorem State.NamedBy.any {s : State} {k : Lamp} {test : Record → Prop} (h : s.NamedBy k test) : s.NamedByAny k := by
  obtain ⟨i, r, hr, hlamp, -⟩ := h
  exact ⟨i, r, hr, hlamp, trivial⟩

/-! ### The indication (R97) -/

/-- The four indications, each with what the records considered hold. -/
theorem State.indication_cases (s : State) (k : Lamp) :
    (s.indication k = .fast ∧ s.NamedByAlerting k) ∨
    (s.indication k = .slow ∧ ¬ s.NamedByAlerting k ∧ s.NamedByReturned k) ∨
    (s.indication k = .steady ∧ ¬ s.NamedByAlerting k ∧ ¬ s.NamedByReturned k ∧ s.NamedByAny k) ∨
    (s.indication k = .off ∧ ¬ s.NamedByAny k) := by
  have halerting : (s.considered k).any Record.isAlerting = true ↔ s.NamedByAlerting k := by
    simp [State.NamedByAlerting, s.namedBy_iff, Record.isAlerting]
  have hreturned : (s.considered k).any (fun r => decide (r.state = .returned)) = true ↔ s.NamedByReturned k := by
    simp [State.NamedByReturned, s.namedBy_iff]
  have hempty : (s.considered k).isEmpty = true ↔ ¬ s.NamedByAny k := by
    simp [State.NamedByAny, s.namedBy_iff, List.eq_nil_iff_forall_not_mem]
  simp only [State.indication]
  split
  next ha => exact .inl ⟨rfl, halerting.mp ha⟩
  next ha =>
    rw [halerting] at ha
    split
    next hr => exact .inr (.inl ⟨rfl, ha, hreturned.mp hr⟩)
    next hr =>
      rw [hreturned] at hr
      split
      next he => exact .inr (.inr (.inr ⟨rfl, hempty.mp he⟩))
      next he => exact .inr (.inr (.inl ⟨rfl, ha, hr, not_not.mp (mt hempty.mpr he)⟩))

/-- Each indication stands exactly where it is the first that applies (R97). -/
theorem State.indication_iff (s : State) (k : Lamp) :
    (s.indication k = .fast ↔ s.NamedByAlerting k) ∧
    (s.indication k = .slow ↔ ¬ s.NamedByAlerting k ∧ s.NamedByReturned k) ∧
    (s.indication k = .steady ↔ ¬ s.NamedByAlerting k ∧ ¬ s.NamedByReturned k ∧ s.NamedByAny k) ∧
    (s.indication k = .off ↔ ¬ s.NamedByAny k) := by
  rcases s.indication_cases k with ⟨h, ha⟩ | ⟨h, ha, hr⟩ | ⟨h, ha, hr, hany⟩ | ⟨h, hnone⟩
  · have hany := State.NamedBy.any ha
    simp [h, ha, hany]
  · have hany := State.NamedBy.any hr
    simp [h, ha, hr, hany]
  · simp [h, ha, hr, hany]
  · have ha : ¬ s.NamedByAlerting k := fun ha => hnone (State.NamedBy.any ha)
    have hr : ¬ s.NamedByReturned k := fun hr => hnone (State.NamedBy.any hr)
    simp [h, ha, hr, hnone]

/-! ### The flash clock (R99) -/

theorem Indication.litAt_fast_iff (phase : Nat) : Indication.fast.litAt phase = true ↔ phase % 250 ≤ 124 := by
  rw [Indication.litAt, decide_eq_true_iff]; omega

theorem Indication.litAt_slow_iff (phase : Nat) : Indication.slow.litAt phase = true ↔ phase ≤ 499 := by
  rw [Indication.litAt, decide_eq_true_iff]; omega

/-- FLASH_CLOCK_TICK while ticks come, from a phase in range: the phase advances modulo 1000 (R99). -/
theorem exec_flashClockTick_of_ticking {s : State} (h : s.ticking = true) (hphase : s.flashPhase ≤ 999) :
    exec .flashClockTick s = .next { s with flashPhase := (s.flashPhase + 1) % 1000 } := by
  have hnext : (if s.flashPhase < 999 then s.flashPhase + 1 else 0) = (s.flashPhase + 1) % 1000 := by
    split <;> omega
  change execFlashClockTick s = _
  rw [execFlashClockTick, if_pos h, hnext]

/-! ### The output (R96, R100, R101) -/

theorem State.engaged_iff (s : State) (k : Lamp) :
    s.engaged k = true ↔ s.line.isFault = true ∧ s.substituteRole = some k := by
  simp [State.engaged]

/-- The Play Context sounds where it holds a step with a tone other than 0 (R100). -/
theorem Play.sounds_iff (play : Play) : play.sounds = true ↔ ∃ now, play.now = some now ∧ now.tone ≠ 0 := by
  simp [Play.sounds, Option.any_eq_true]

section Output
variable {s : State} {k : Lamp}

theorem State.lampLit_of_lampTest (hreset : s.inReset = false) (htest : s.lampTest = true) : s.lampLit k = true := by
  simp [State.lampLit, hreset, htest]

theorem State.lampLit_of_engaged (hreset : s.inReset = false) (htest : s.lampTest = false)
    (hengaged : s.engaged k = true) : s.lampLit k = s.play.sounds := by
  simp [State.lampLit, hreset, htest, hengaged]

theorem State.lampLit_of_not_engaged (hreset : s.inReset = false) (htest : s.lampTest = false)
    (hengaged : s.engaged k = false) : s.lampLit k = (s.indication k).litAt s.flashPhase := by
  simp [State.lampLit, hreset, htest, hengaged]

end Output

/-- Settles O6: the indication is the first that applies, the output the first of the lamp test, the substitute lamp and
the indication at the flash clock's phase. -/
theorem lampsShowTheRecords : Obligations.LampsShowTheRecords := by
  refine ⟨fun s k => ?_, fun s k hreset htest hengaged => ?_, fun s hclkin hreset hphase => ?_⟩
  · obtain ⟨hfast, hslow, hsteady, hoff⟩ := s.indication_iff k
    refine ⟨hfast, hslow, hsteady, hoff, State.lampLit_of_lampTest, fun hreset htest hfault hrole => ?_,
      fun hreset htest hnot => State.lampLit_of_not_engaged hreset htest ?_⟩
    · rw [State.lampLit_of_engaged hreset htest ((s.engaged_iff k).mpr ⟨hfault, hrole⟩), Play.sounds_iff]
    · rw [Bool.eq_false_iff, Ne, s.engaged_iff, not_and_or, Bool.not_eq_true]
      exact hnot
  · rw [State.lampLit_of_not_engaged hreset htest hengaged]
    refine ⟨fun h => ?_, fun h => ?_, fun h => ?_, fun h => ?_⟩ <;> rw [h]
    · exact Indication.litAt_fast_iff s.flashPhase
    · exact Indication.litAt_slow_iff s.flashPhase
    · rfl
    · rfl
  · exact exec_flashClockTick_of_ticking (s.ticking_iff.mpr ⟨hclkin, hreset⟩) hphase

end Sys2Proof.Machine
end

