-- ==== Sys2Proof/Proofs/AlertList.lean ====
section
/-! PROOF. ALERT_LIST (R144): the occupied slots from the start slot upwards, what one entry of the reply holds, and the
whole answer of the request. -/

namespace Sys2Proof.Machine

/-! ### The slots examined -/

/-- The slots found are the occupied ones from the start slot upwards (R144). -/
theorem State.mem_occupiedFrom (s : State) (start i : SlotNo) :
    i ∈ s.occupiedFrom start ↔ start ≤ i ∧ (s.record i).isSome = true := by
  simp [State.occupiedFrom]

/-- The slots found stand in slot order (R144). -/
theorem State.pairwise_occupiedFrom (s : State) (start : SlotNo) :
    (s.occupiedFrom start).Pairwise (fun i j => i < j) :=
  (List.pairwise_lt_finRange 30).filter _

/-! ### One entry of the reply (Table 11.4) -/

theorem flagBit_eq (b : Bool) (k : Nat) : flagBit b k = 2 ^ k * b.toNat := by
  cases b <;> simp [flagBit]

theorem Raiser.orphanBits_host (q : Port) (orphaned : Bool) (present value : Nat) :
    (Raiser.host q orphaned).orphanBits present value = 2 ^ present + 2 ^ value * orphaned.toNat :=
  congrArg (2 ^ present + ·) (flagBit_eq orphaned value)

theorem Raiser.orphanBits_internal (present value : Nat) : Raiser.internal.orphanBits present value = 0 := rfl

theorem State.listEntry_of_free {s : State} {i : SlotNo} (h : s.record i = none) : s.listEntry i = [] := by
  simp only [State.listEntry, h]

/-- The entry of an occupied slot, byte by byte. The flags are muted, sound due, orphaned present and orphaned, from
bit 0 up (R144). -/
theorem State.listEntry_of_record {s : State} {i : SlotNo} {q : Record} (h : s.record i = some q) :
    s.listEntry i =
      [byte i.val, (s.slot i).generation, q.origin.code] ++ bytes2 q.tag.toNat ++
        [q.state.code, byte q.current, byte q.lamps.toNat,
          byte (q.muted.toNat + 2 * q.soundDue.toNat + q.raiser.orphanBits 2 3)] := by
  simp [State.listEntry, h, alertListEntry, State.handleOf, Handle.bytes, flagBit_eq]

/-! ### The request -/

theorem startField_of_lt {start : Byte} (h : start.toNat < 30) : startField [start] = some ⟨start.toNat, h⟩ :=
  dif_pos h

theorem startField_of_le {start : Byte} (h : 30 ≤ start.toNat) : startField [start] = none :=
  dif_neg h.not_gt

@[simp] theorem State.removeRequest_occupiedFrom (s : State) (p : Port) (start : SlotNo) :
    (s.removeRequest p).occupiedFrom start = s.occupiedFrom start := rfl

section Request
variable {s : State} {p : Port} {r : Request} {rest : List Request}

/-- ALERT_LIST from a start slot that the part does not have is refused (R140, R144). -/
theorem exec_alertList_of_no_start (h : s.Taking .alertList p r rest) (hstart : startField r.payload = none) :
    exec .alertList s = .next ((s.removeRequest p).refusedWith p r .badValue []) := by
  refine congrArg Host.Outcome.next
    ((State.takeRequest_served h anyRights rfl _ serveAlertList fun _ _ _ => rfl).trans ?_)
  rw [hstart]
  rfl

/-- ALERT_LIST carried out: its whole answer, from the occupied slots found (R136, R144). -/
theorem exec_alertList_of_start (h : s.Taking .alertList p r rest) {start : SlotNo}
    (hstart : startField r.payload = some start) :
    exec .alertList s = .next
      ((s.removeRequest p).answered p r
        ([byte ((s.occupiedFrom start).take 6).length,
            (((s.occupiedFrom start).drop 6).head?.elim 0xFF#8 fun i => byte i.val)] ++
          ((s.occupiedFrom start).take 6).flatMap s.listEntry)) := by
  refine congrArg Host.Outcome.next
    ((State.takeRequest_served h anyRights rfl _ serveAlertList fun _ _ _ => rfl).trans ?_)
  simp only [hstart, State.removeRequest_occupiedFrom]
  cases (s.occupiedFrom start).drop 6 <;> rfl

end Request

/-- Settles O46: the slots found are cut after the sixth, those before the cut are listed, and the first one after it is
the continuation. -/
theorem alertListReportsSlots : Obligations.AlertListReportsSlots := by
  intro s p r rest start htaking hpayload
  refine ⟨fun hrange => ?_, fun hrange => ?_⟩
  · exact exec_alertList_of_no_start htaking (hpayload ▸ startField_of_le hrange)
  · have hstart : startField r.payload = some ⟨start.toNat, hrange⟩ := hpayload ▸ startField_of_lt hrange
    have hordered := s.pairwise_occupiedFrom ⟨start.toNat, hrange⟩
    have hfound := s.mem_occupiedFrom ⟨start.toNat, hrange⟩
    have hanswer := exec_alertList_of_start htaking hstart
    generalize s.occupiedFrom ⟨start.toNat, hrange⟩ = occupied at hordered hfound hanswer
    refine ⟨occupied.take 6, occupied.drop 6, ?_, ?_, List.length_take_le 6 occupied, fun hbeyond => ?_, ?_⟩
    · rwa [List.take_append_drop]
    · rwa [List.take_append_drop]
    · rw [Ne, List.drop_eq_nil_iff, not_le] at hbeyond
      exact List.length_take_of_le hbeyond.le
    · rw [hanswer]
      congr 4 -- the continuation byte, and the entry of a slot
      · cases occupied.drop 6 <;> rfl
      · funext i
        cases h : s.record i with
        | none => exact State.listEntry_of_free h
        | some q =>
          rw [State.listEntry_of_record h]
          cases hraiser : q.raiser with
          | host origin orphaned => simp only [hraiser, Raiser.orphanBits_host, Nat.reducePow]
          | internal => simp only [hraiser, Raiser.orphanBits_internal]

end Sys2Proof.Machine
end

