-- ==== Sys2Proof/Proofs/EventQueues.lean ====
section
/-! PROOF. Posting an event (R149, R151): which ports an event is offered to, which classes a mask admits, and what an
admitted event does to a queue with and without an OVERRUN entry; and the attention line (R154). -/

namespace Sys2Proof.Machine

/-! ### Which ports take an event (R149) -/

theorem PortState.offered_iff (x : PortState) (p : Port) (e : Event) :
    x.offered p e = true ↔ x.session = .opened ∧ ∀ source state, e ≠ .portState p state source := by
  cases e with
  | portState q state source =>
    simp only [PortState.offered, Bool.and_eq_true, decide_eq_true_eq]
    refine and_congr_right fun _ => ⟨?_, ?_⟩
    · rintro hq source' state' ⟨⟩
      exact hq rfl
    · rintro hne rfl
      exact hne source state rfl
  | record | sound | silenced | resounded | patternState | overrun => simp [PortState.offered]

/-- A host's record is of class OWN at the port of its origin and of class OTHERS elsewhere. -/
theorem ClassMask.admits_record_of_host (m : ClassMask) (p : Port) (kind : RecordKind) {about : RecordRef}
    (source : Source) {q : Port} (h : about.origin = .host q) :
    m.admits ((Event.record kind about source).classFor p) = true ↔ q = p ∨ m.others = true := by
  by_cases hq : q = p <;> simp [Event.classFor, h, hq, ClassMask.admits]

theorem ClassMask.admits_record_of_internal (m : ClassMask) (p : Port) (kind : RecordKind) {about : RecordRef}
    (source : Source) (h : about.origin = .internal) :
    m.admits ((Event.record kind about source).classFor p) = m.system := by
  simp [Event.classFor, h, ClassMask.admits]

/-! ### An offer -/

section Offer
variable {x : PortState} {p : Port} {e : Event}

theorem PortState.offer_of_taken (ho : x.offered p e = true) (ha : x.mask.admits (e.classFor p) = true) :
    x.offer p e = { x with events := enqueueEvent x.events e } := by
  simp [PortState.offer_eq, ho, ha]

theorem PortState.offer_of_not_taken (h : ¬ (x.offered p e = true ∧ x.mask.admits (e.classFor p) = true)) :
    x.offer p e = x := by
  rw [← Bool.and_eq_true, Bool.not_eq_true] at h
  simp [PortState.offer_eq, h]

end Offer

/-! ### What an admitted event does to the queue (R151) -/

theorem any_isOverrun_eq_false {queue : List Event} (h : ∀ y ∈ queue, y.isOverrun = false) :
    queue.any Event.isOverrun = false :=
  List.any_eq_false.mpr fun y hy => Bool.eq_false_iff.mp (h y hy)

theorem Event.countLost_of_ordinary {e : Event} (h : e.isOverrun = false) : e.countLost = e := by
  cases e with
  | overrun => cases h
  | record | sound | silenced | resounded | portState | patternState => rfl

theorem map_countLost_of_ordinary {queue : List Event} (h : ∀ y ∈ queue, y.isOverrun = false) :
    queue.map Event.countLost = queue :=
  (List.map_congr_left fun y hy => Event.countLost_of_ordinary (h y hy)).trans queue.map_id

theorem enqueueEvent_of_overrun {ordinary : List Event} (count : Nat) (e : Event)
    (h : ∀ y ∈ ordinary, y.isOverrun = false) :
    enqueueEvent (ordinary ++ [.overrun count]) e =
      ordinary ++ [.overrun (if count < 255 then count + 1 else count)] := by
  have hany : (ordinary ++ [Event.overrun count]).any Event.isOverrun = true := by simp [Event.isOverrun]
  rw [enqueueEvent_eq, if_pos hany, List.map_append, map_countLost_of_ordinary h]
  rfl

theorem enqueueEvent_of_room {queue : List Event} (e : Event) (h : ∀ y ∈ queue, y.isOverrun = false)
    (hroom : queue.length < 15) : enqueueEvent queue e = queue ++ [e] := by
  simp [enqueueEvent_eq, any_isOverrun_eq_false h, hroom]

theorem enqueueEvent_of_full {queue : List Event} (e : Event) (h : ∀ y ∈ queue, y.isOverrun = false)
    (hfull : 15 ≤ queue.length) : enqueueEvent queue e = queue ++ [.overrun 1] := by
  simp [enqueueEvent_eq, any_isOverrun_eq_false h, hfull.not_gt]

/-! ### The attention line (R154) -/

theorem State.attention_iff (s : State) (p : Port) :
    s.attention p = true ↔
      (s.port p).session = .opened ∧
        ((s.port p).replies ≠ [] ∨ ((s.port p).events ≠ [] ∧ (s.port p).attention = true)) := by
  simp [State.attention]

/-- Settles O41: the port takes the event exactly where it is offered and its class admitted, and then the three states
of its queue are those of R151. -/
theorem eventsArePosted : Obligations.EventsArePosted := by
  refine ⟨fun s e p hordinary => ?_, fun _ _ => rfl, State.attention_iff⟩
  intro x takes
  have htakes : takes ↔ x.offered p e = true ∧ x.mask.admits (e.classFor p) = true := by
    rw [PortState.offered_iff, and_assoc]
    refine and_congr_right fun _ => and_congr_right fun _ => ?_
    cases e with
    | record kind about source =>
      cases horigin : about.origin with
      | host q => simp only [horigin, x.mask.admits_record_of_host p kind source horigin]
      | internal => simp only [horigin, x.mask.admits_record_of_internal p kind source horigin]
    | overrun => cases hordinary
    | sound | silenced | resounded | portState | patternState => rfl
  have hpost (h : takes) : (s.post e).port p = { x with events := enqueueEvent x.events e } :=
    (s.port_post e p).trans (PortState.offer_of_taken (htakes.mp h).1 (htakes.mp h).2)
  refine ⟨fun h => ?_, fun h ordinary count hqueue hold => ?_, fun h hold hroom => ?_, fun h hold hfull => ?_⟩
  · exact (s.port_post e p).trans (PortState.offer_of_not_taken (mt htakes.mpr h))
  · rw [hpost h, hqueue, enqueueEvent_of_overrun count e hold]
  · rw [hpost h, enqueueEvent_of_room e hold hroom]
  · rw [hpost h, enqueueEvent_of_full e hold hfull]

end Sys2Proof.Machine
end


-- ==== Sys2Proof/Proofs/Atoms.lean ====
section
/-! PROOF. What the shared operations are made of: the single changes (atoms) that the Output Arbiter, the Tone
Sequencer, the Alert Table and the Pattern Library make, each with the condition it is made under. Every shared operation
is a run of atoms, so an invariant of the machine has to be proved of the atoms alone. -/

namespace Sys2Proof.Machine

/-! ### The three changes of a slot's occupation -/

/-- A new record enters a slot, without its event (R5, R21). -/
def State.enroll (s : State) (i : SlotNo) (raiser : Raiser) (f : RaiseFields) : State :=
  { s with
    slots := s.slots.set i { s.slot i with record := some (f.asRecord raiser) }
    arrival := s.arrival ++ [i]
    directory := s.directory.set f.pattern { s.entry f.pattern with refs := (s.entry f.pattern).refs + 1 } }

/-- A record is re-alerted, without its event (R7, R21). -/
def State.reenroll (s : State) (i : SlotNo) (old : Record) (f : RaiseFields) : State :=
  { s with
    slots := s.slots.set i { s.slot i with record := some (f.asRecord old.raiser) }
    arrival := s.arrival.erase i ++ [i]
    directory :=
      if f.pattern = old.pattern then s.directory else ((s.dropRef old.pattern).takeRef f.pattern).directory }

/-- A record leaves its slot, without its event (R12). -/
def State.vacate (s : State) (i : SlotNo) (r : Record) : State :=
  { s with
    arrival := s.arrival.erase i
    directory := s.directory.set r.pattern { s.entry r.pattern with refs := (s.entry r.pattern).refs - 1 }
    slots := s.slots.set i { generation := (s.slot i).generation + 1, record := none } }

theorem State.createRecord_eq_enroll (s : State) (i : SlotNo) (raiser : Raiser) (f : RaiseFields) (source : Source) :
    s.createRecord i raiser f source =
      (s.enroll i raiser f).post
        (.record .raised { handle := s.handleOf i, origin := raiser.origin, tag := f.tag, priority := f.base } source) :=
  s.createRecord_eq i raiser f source

theorem State.realertRecord_eq_reenroll (s : State) (i : SlotNo) (old : Record) (f : RaiseFields) (source : Source) :
    s.realertRecord i old f source =
      (s.reenroll i old f).post
        (.record .realerted
          { handle := s.handleOf i, origin := old.origin, tag := f.tag, priority := f.base } source) :=
  s.realertRecord_eq i old f source

theorem State.freeRecord_eq_vacate {s : State} {i : SlotNo} {r : Record} (h : s.record i = some r) (source : Source) :
    s.freeRecord i source = (s.post (.record .freed (s.about i r) source)).vacate i r :=
  s.freeRecord_eq i r source h

/-! ### The conditions of a change -/

/-- The fields of a raise are in the ranges of Table 1.2. -/
def RaiseFields.InRange (f : RaiseFields) : Prop :=
  1 ≤ f.base ∧ f.base ≤ f.ceiling ∧ f.ceiling ≤ 7 ∧ f.mode.left ≤ f.mode.count ∧ f.mode.count ≤ 255 ∧
    (f.mode.isCounted = true → 1 ≤ f.mode.count) ∧ f.interval ≤ 255

/-- The cause of the internal record of a slot stands (R23, Table 1.6). -/
def State.CauseOf (s : State) (i : SlotNo) : Prop :=
  (∃ p : Port, i.val = 24 + p.val ∧ (s.port p).session = .lost) ∨
    (i = sounderFaultSlot ∧ s.line.isFault = true) ∨ (i = storeFaultSlot ∧ 0 < s.damagedCount)

/-- An internal record may be raised in a slot: its cause stands, its pattern is built in, and its fields are in range
where the parameters are (Table 1.5). -/
structure State.MayRaise (s : State) (i : SlotNo) (f : RaiseFields) : Prop where
  cause : s.CauseOf i
  builtIn : isBuiltIn f.pattern = true
  range : s.params.InRange → f.InRange

/-- A record is changed in place: it keeps its pattern, origin and tag, stays RETURNED where it was, and stays sound. -/
structure Record.Amends (r r' : Record) : Prop where
  pattern : r'.pattern = r.pattern
  origin : r'.origin = r.origin
  tag : r'.tag = r.tag
  returned : r.state = .returned → r'.state = .returned
  sound : r.InRange → r.DeadlineStands → r'.InRange ∧ r'.DeadlineStands

/-- A change of every record that touches its orphaned and muted fields alone. -/
def Refits (change : Record → Record) : Prop :=
  ∀ r, ∃ raiser muted, raiser.origin = r.origin ∧ change r = { r with raiser := raiser, muted := muted }

/-- The counts of a Line Monitor state are in range (section 6.3). -/
def Line.CountsInRange : Line → Prop
  | .normal bad => bad ≤ 3
  | .fault _ ok => ok ≤ 15

/-! ### The atoms -/

/-- One change of one block. The index names the internal slot whose cause the change may remove. -/
inductive Atom : Option SlotNo → State → State → Prop
  | post (s : State) (e : Event) (h : e.isOverrun = false) : Atom none s (s.post e)
  | setPlay (s : State) (play : Play) : Atom none s (s.setPlay play)
  | setMute (s : State) (mute : Option Nat) (h : mute = none ∨ mute = s.params.muteStart) :
      Atom none s { s with mute := mute }
  | amend (s : State) (i : SlotNo) (r r' : Record) (h : s.record i = some r) (ha : r.Amends r') :
      Atom none s (s.setRecord i r')
  | refit (s : State) (change : Record → Record) (h : Refits change) : Atom none s (s.mapRecords change)
  | vacate (s : State) (i : SlotNo) (r : Record) (h : s.record i = some r) : Atom none s (s.vacate i r)
  | toFallback (s : State) (i : SlotNo) : Atom none s (s.switchToFallback i)
  | enroll (s : State) (i : SlotNo) (f : RaiseFields) (h : s.record i = none) (hm : s.MayRaise i f) :
      Atom none s (s.enroll i .internal f)
  | reenroll (s : State) (i : SlotNo) (old : Record) (f : RaiseFields) (h : s.record i = some old)
      (hst : old.state ≠ .alerting) (hm : s.MayRaise i f) : Atom none s (s.reenroll i old f)
  | damage (s : State) (n : PatNo) (l : Layout) (hu : isBuiltIn n = false) (h : (s.entry n).body = .ready l) :
      Atom none s (s.setEntry n { s.entry n with body := .damaged l })
  | disownReady (s : State) (n : PatNo) (l : Layout) (hu : isBuiltIn n = false) (h : (s.entry n).body = .ready l) :
      Atom none s (s.setEntry n { s.entry n with body := .ready { l with definer := none } })
  | disownDamaged (s : State) (n : PatNo) (l : Layout) (hu : isBuiltIn n = false)
      (h : (s.entry n).body = .damaged l) :
      Atom none s (s.setEntry n { s.entry n with body := .damaged { l with definer := none } })
  | discard (w : Option SlotNo) (s : State) (n : PatNo) (l : Layout) (hu : s.BuiltInsStand → isBuiltIn n = false)
      (h : (s.entry n).body.layout = some l) (hrefs : (s.entry n).refs = 0 ∨ (s.entry n).body.nameable = false)
      (hw : w = some storeFaultSlot ∨ (s.entry n).body.isDamaged = false ∨
        0 < ((s.freeExtent l).setEntry n Entry.empty).damagedCount) :
      Atom w s ((s.freeExtent l).setEntry n Entry.empty)
  | define (s : State) (p : Port) (n : PatNo) (length loopIndex pace start : Nat) (free : List Extent)
      (h : (s.entry n).body = .empty) (hfit : firstFit length s.free = some (start, free))
      (hl : 1 ≤ length) (hl' : length ≤ 128) (hloop : loopIndex < length) (hp : 1 ≤ pace) (hp' : pace ≤ 8) :
      Atom none s
        (State.setEntry { s with free := free } n
          { body := .loading
              { definer := some p, start := some start, length := length, loopIndex := loopIndex, pace := pace } 0
            refs := 0 })
  | write (s : State) (i : Nat) (w : StepWord) : Atom none s (s.setWord i w)
  | fill (s : State) (n : PatNo) (l : Layout) (before after : Nat) (h : (s.entry n).body = .loading l before)
      (ha : after ≤ l.length) : Atom none s (s.setEntry n { s.entry n with body := .loading l after })
  | commit (s : State) (n : PatNo) (l : Layout) (filled : Nat) (h : (s.entry n).body = .loading l filled) :
      Atom none s (s.setEntry n { s.entry n with body := .ready l })
  | subscribe (s : State) (p : Port) (mask : ClassMask) (attention : Bool) :
      Atom none s (s.setPort p { s.port p with mask := mask, attention := attention })
  | close (s : State) (p : Port) (h : (s.port p).session ≠ .lost) : Atom none s (s.closeSession p)
  | reopen (w : Option SlotNo) (s : State) (p : Port)
      (hw : w = some (portLostSlot p) ∨ (s.port p).session ≠ .lost) : Atom w s (s.openSession p)
  | setLine (w : Option SlotNo) (s : State) (line : Line) (hc : line.CountsInRange)
      (hf : line.isFault = true → s.line.isFault = true ∨ s.lineTimer.isSome = true)
      (hw : w = some sounderFaultSlot ∨ (s.line.isFault = true → line.isFault = true)) : Atom w s (s.setLine line)

/-- A run of atoms that remove no cause. -/
abbrev Quiets : State → State → Prop := Relation.ReflTransGen (Atom none)

/-- An action on the blocks: an atom that removes no cause, or one that does, with the return of the record whose cause
it was. -/
inductive Act : State → State → Prop
  | quiet {s t : State} (h : Atom none s t) : Act s t
  | settle {s s1 s2 : State} (i : SlotNo) (h : Atom (some i) s s1) (hq : Quiets s1 s2) :
      Act s (s2.internalReturn i).1

/-- A run of actions. -/
abbrev Acts : State → State → Prop := Relation.ReflTransGen Act

theorem Quiets.acts {s t : State} (h : Quiets s t) : Acts s t := Relation.ReflTransGen.mono (fun _ _ => Act.quiet) s t h

theorem Atom.quiets {s t : State} (h : Atom none s t) : Quiets s t := .single h

/-- A fold is a run of atoms where each of its steps is one. -/
theorem quiets_foldl {α : Type} {op : State → α → State} {l : List α} (h : ∀ s, ∀ a ∈ l, Quiets s (op s a))
    (s : State) : Quiets s (l.foldl op s) := by
  induction l generalizing s with
  | nil => exact .refl
  | cons a l ih =>
    exact (h s a (List.mem_cons_self ..)).trans (ih (fun s b hb => h s b (List.mem_cons_of_mem a hb)) _)

/-! ### Records -/

section
variable (s : State)

theorem quiets_postRecord (kind : RecordKind) (i : SlotNo) (r : Record) (source : Source) :
    Quiets s (s.postRecord kind i r source) := (Atom.post s _ rfl).quiets

theorem quiets_freeRecord (i : SlotNo) (source : Source) : Quiets s (s.freeRecord i source) := by
  cases h : s.record i with
  | none => rw [State.freeRecord_free s i source h]
  | some r =>
    rw [State.freeRecord_eq_vacate h]
    exact (Atom.post s _ rfl).quiets.tail (Atom.vacate _ i r h)

/-- A record that is no longer ALERTING has no deadline, which is sound (R14). -/
theorem Record.amends_silenced (r : Record) (state : RecordState) (muted : Bool) (hs : state ≠ .alerting)
    (hr : r.state = .alerting) : r.Amends { r with state := state, deadline := none, muted := muted } where
  pattern := rfl
  origin := rfl
  tag := rfl
  returned h := by rw [hr] at h; cases h
  sound hrange _ := ⟨hrange, by simp [Record.DeadlineStands, hs]⟩

theorem quiets_returnRecord {i : SlotNo} {r : Record} (h : s.record i = some r) (hr : r.state = .alerting)
    (source : Source) : Quiets s (s.returnRecord i r source) :=
  (Atom.amend s i r _ h (r.amends_silenced .returned r.muted nofun hr)).quiets.trans (quiets_postRecord _ _ i _ source)

theorem quiets_acknowledge (i : SlotNo) (who : AckParty) : Quiets s (s.acknowledge i who) := by
  unfold State.acknowledge
  split
  · exact .refl
  · rename_i r h
    split
    · rename_i hr
      exact (Atom.amend s i r _ h (r.amends_silenced (.acknowledged who) false nofun hr)).quiets.trans
        (quiets_postRecord _ _ i _ _)
    · exact quiets_freeRecord s i _
    · exact .refl

theorem quiets_acknowledgeAll (who : AckParty) : Quiets s (s.acknowledgeAll who) :=
  quiets_foldl (fun s i _ => quiets_acknowledge s i who) s

theorem quiets_clearRecord (i : SlotNo) (source : Source) : Quiets s (s.clearRecord i source) := by
  unfold State.clearRecord
  split
  · exact .refl
  · rename_i r h
    split
    · rename_i hr
      split
      · exact quiets_returnRecord s h hr source
      · exact quiets_freeRecord s i source
    · exact quiets_freeRecord s i source
    · exact .refl

theorem quiets_closeRecord (p : Port) (i : SlotNo) : Quiets s (s.closeRecord p i) := by
  unfold State.closeRecord
  split
  · exact .refl
  · rename_i r h
    split
    · exact .refl
    · split
      · exact quiets_freeRecord s i _
      · split
        · rename_i hr; exact quiets_returnRecord s h hr _
        · exact quiets_freeRecord s i _
        · exact .refl

theorem quiets_closeRecords (p : Port) : Quiets s (s.closeRecords p) :=
  quiets_foldl (fun s i _ => quiets_closeRecord s p i) s

theorem refits_setOrphaned (p : Port) (orphaned : Bool) : Refits (fun r => r.setOrphaned p orphaned) := by
  intro r
  dsimp only [Record.setOrphaned]
  split
  · rename_i q o h
    split
    · exact ⟨.host q orphaned, r.muted, by simp [Record.origin, Raiser.origin, h], rfl⟩
    · exact ⟨r.raiser, r.muted, rfl, rfl⟩
  · exact ⟨r.raiser, r.muted, rfl, rfl⟩

theorem quiets_setOrphans (p : Port) (orphaned : Bool) : Quiets s (s.setOrphans p orphaned) :=
  (Atom.refit s _ (refits_setOrphaned p orphaned)).quiets

theorem quiets_muteRecords (level : Nat) : Quiets s (s.muteRecords level) := by
  refine (Atom.refit s _ fun r => ?_).quiets
  split
  · exact ⟨r.raiser, true, rfl, rfl⟩
  · exact ⟨r.raiser, r.muted, rfl, rfl⟩

theorem quiets_unmuteRecords : Quiets s s.unmuteRecords :=
  (Atom.refit s _ fun r => ⟨r.raiser, false, rfl, rfl⟩).quiets

theorem quiets_internalRaise {i : SlotNo} {f : RaiseFields} (h : s.MayRaise i f) :
    Quiets s (s.internalRaise i f).1 := by
  rcases s.internalRaise_cases i f with ⟨hr, he⟩ | ⟨r, hr, hst, he⟩ | ⟨r, hr, hst, he⟩ <;> rw [he]
  · rw [State.createRecord_eq_enroll]
    exact (Atom.enroll s i f hr h).quiets.tail (Atom.post _ _ rfl)
  · rw [State.realertRecord_eq_reenroll]
    exact (Atom.reenroll s i r f hr hst h).quiets.tail (Atom.post _ _ rfl)

theorem quiets_internalReturn (i : SlotNo) : Quiets s (s.internalReturn i).1 := by
  rcases s.internalReturn_cases i with ⟨hr, he⟩ | ⟨r, hr, hst, he⟩ | ⟨r, who, hr, hst, he⟩ | ⟨r, hr, hst, he⟩ <;> rw [he]
  · exact quiets_returnRecord s hr hst _
  · exact quiets_freeRecord s i _

/-! ### The internal raises (Table 1.5) -/

theorem counted_three_inRange {f : RaiseFields} {priority : Nat} (hb : f.base = priority) (hc : f.ceiling = priority)
    (hm : f.mode = .counted 3 3 ∨ f.mode = .continuous) (hi : f.interval = 0) (h1 : 1 ≤ priority) (h7 : priority ≤ 7) :
    f.InRange := by
  refine ⟨by omega, by omega, by omega, ?_, ?_, ?_, by omega⟩ <;>
    rcases hm with hm | hm <;> simp [hm, SoundMode.left, SoundMode.count, SoundMode.isCounted]

theorem portLostFields_mayRaise {p : Port} (h : (s.port p).session = .lost) :
    s.MayRaise (portLostSlot p) (s.portLostFields p) where
  cause := .inl ⟨p, rfl, h⟩
  builtIn := rfl
  range := fun ⟨_, _, _, _, _, _, h1, h7, _⟩ => counted_three_inRange rfl rfl (.inr rfl) rfl h1 h7

theorem sounderFaultFields_mayRaise (kind : FaultKind) (h : s.line.isFault = true) :
    s.MayRaise sounderFaultSlot (s.sounderFaultFields kind) where
  cause := .inr (.inl ⟨rfl, h⟩)
  builtIn := rfl
  range := fun ⟨_, _, _, _, _, _, _, _, h1, h7, _⟩ => counted_three_inRange rfl rfl (.inl rfl) rfl h1 h7

theorem storeFaultFields_mayRaise (n : PatNo) (h : 0 < s.damagedCount) :
    s.MayRaise storeFaultSlot (s.storeFaultFields n) where
  cause := .inr (.inr ⟨rfl, h⟩)
  builtIn := rfl
  range := fun ⟨_, _, _, _, _, _, _, _, _, _, h1, h7, _⟩ => counted_three_inRange rfl rfl (.inl rfl) rfl h1 h7

/-! ### The directory (R85, R86, R88, R89) -/

theorem mem_userNumbers (n : PatNo) : n ∈ userNumbers ↔ isBuiltIn n = false := by
  simp [userNumbers]

theorem mem_damagedNumbers (n : PatNo) :
    n ∈ s.damagedNumbers ↔ isBuiltIn n = false ∧ (s.entry n).body.isDamaged = true := by
  simp [State.damagedNumbers, mem_userNumbers]

/-- An entry is DAMAGED exactly where the damaged count is not 0 (R86). -/
theorem damagedCount_pos_iff :
    0 < s.damagedCount ↔ ∃ n, isBuiltIn n = false ∧ (s.entry n).body.isDamaged = true := by
  simp only [State.damagedCount, List.length_pos_iff_exists_mem, mem_damagedNumbers]

theorem quiets_markDamaged {n : PatNo} (hu : isBuiltIn n = false) (source : Source) :
    Quiets s (s.markDamaged n source).1 := by
  unfold State.markDamaged
  split
  · rename_i l h
    have hmarked : Quiets s ((s.setEntry n { s.entry n with body := .damaged l }).post (.patternState n source)) :=
      (Atom.damage s n l hu h).quiets.tail (Atom.post _ _ rfl)
    dsimp only
    split
    · refine hmarked.trans (quiets_internalRaise _ (storeFaultFields_mayRaise _ n ?_))
      exact (damagedCount_pos_iff _).mpr ⟨n, hu, by simp [EntryBody.isDamaged]⟩
    · exact hmarked
  · exact .refl

/-- Dropping an entry that is not DAMAGED removes no cause. -/
theorem quiets_dropPattern {n : PatNo} {l : Layout} (hu : isBuiltIn n = false) (h : (s.entry n).body.layout = some l)
    (hrefs : (s.entry n).refs = 0 ∨ (s.entry n).body.nameable = false) (hd : (s.entry n).body.isDamaged = false)
    (source : Source) : Quiets s (s.dropPattern n l source) :=
  (Atom.discard none s n l (fun _ => hu) h hrefs (.inr (.inl hd))).quiets.tail (Atom.post _ _ rfl)

theorem quiets_leaveEntry (p : Port) (closing : Bool) {n : PatNo} (hu : isBuiltIn n = false) :
    Quiets s (s.leaveEntry p closing n) := by
  unfold State.leaveEntry
  split
  · rename_i l fill h
    split
    · exact quiets_dropPattern s hu (by rw [h]; rfl) (.inr (by rw [h]; rfl)) (by rw [h]; rfl) _
    · exact .refl
  · rename_i l h
    split
    · exact (Atom.disownReady s n l hu h).quiets
    · exact .refl
  · rename_i l h
    split
    · exact (Atom.disownDamaged s n l hu h).quiets
    · exact .refl
  · exact .refl

theorem quiets_leaveEntries (p : Port) (closing : Bool) : Quiets s (s.leaveEntries p closing) :=
  quiets_foldl (fun s n hn => quiets_leaveEntry s p closing ((mem_userNumbers n).mp hn)) s

/-! ### The Tone Sequencer and the Output Arbiter -/

theorem quiets_setPlay (play : Play) : Quiets s (s.setPlay play) := (Atom.setPlay s play).quiets

theorem quiets_cut : Quiets s s.cut := quiets_setPlay s .idle

theorem quiets_release : Quiets s s.release := by
  unfold State.release
  split
  · exact quiets_setPlay s _
  · exact .refl

theorem quiets_fallBack (i : SlotNo) : Quiets s (s.fallBack i) :=
  (Atom.toFallback s i).quiets.trans (quiets_setPlay _ _)

/-- Only the load of a user entry's step finds bad parity (R53, R67). -/
theorem State.loadStep_badParity {s : State} {n : PatNo} {index : Nat} (h : s.loadStep n index = .badParity) :
    isBuiltIn n = false ∧ ∃ l, (s.entry n).body = .ready l ∧ (s.word (l.start.getD 0 + index)).good = false := by
  unfold State.loadStep at h
  split at h
  · rename_i l hl
    split at h
    · cases h
    · rename_i hb
      dsimp only at h
      split at h
      · cases h
      · rename_i hg
        exact ⟨by simpa using hb, l, hl, by simpa using hg⟩
  · cases h

theorem quiets_loadOwner (i : SlotNo) (index : Nat) : Quiets s (s.loadOwner i index).1 := by
  unfold State.loadOwner
  split
  · exact .refl
  · rename_i r h
    split
    · exact quiets_setPlay s _
    · exact quiets_fallBack s i
    · rename_i hload
      exact (quiets_markDamaged s (State.loadStep_badParity hload).1 _).trans (quiets_fallBack _ i)

theorem quiets_beginTenure (i : SlotNo) : Quiets s (s.beginTenure i).1 := by
  unfold State.beginTenure
  split
  · exact .refl
  · exact (quiets_loadOwner s i _).tail (Atom.post _ _ rfl)

theorem quiets_startOnce : Quiets s s.startOnce.1 := by
  unfold State.startOnce
  split
  · exact .refl
  · exact quiets_beginTenure s _

theorem quiets_afterLoad (loaded : State × Bool) : Quiets loaded.1 (State.afterLoad loaded) := by
  unfold State.afterLoad
  split
  · split
    · exact (quiets_cut _).trans (quiets_startOnce _)
    · exact .refl
  · exact .refl

theorem quiets_startHead : Quiets s s.startHead := (quiets_startOnce s).trans (quiets_afterLoad _)

theorem quiets_arbitrateTail : Quiets s s.arbitrateTail := by
  unfold State.arbitrateTail
  split
  · exact (quiets_cut s).trans (quiets_startHead _)
  · exact .refl

theorem quiets_arbitrate (leaving : Leaving) : Quiets s (s.arbitrate leaving) := by
  have hcut : Quiets s s.cut.startHead := (quiets_cut s).trans (quiets_startHead _)
  unfold State.arbitrate
  split
  · exact quiets_startHead s
  · split
    · split
      · exact hcut
      · exact .refl
    · split
      · exact hcut
      · exact (quiets_release s).trans (quiets_arbitrateTail _)
  · exact quiets_arbitrateTail s

theorem quiets_arbitrateIf (changed : State × Bool) : Quiets changed.1 (State.arbitrateIf changed) := by
  unfold State.arbitrateIf
  split
  · exact quiets_arbitrate _ _
  · exact .refl

/-- What sounds is cut, and a remaining head starts (R44). -/
def State.hush (s : State) : State :=
  match s.play with
  | .idle => s
  | .playing _ _ => s.cut.startHead
  | .tail _ => s.cut.startHead

theorem State.silenceAction_eq (source : Source) :
    s.silenceAction source =
      State.post { (s.muteRecords s.silenceLevel).hush with
          mute := (s.muteRecords s.silenceLevel).hush.params.muteStart }
        (.silenced source s.silenceLevel (s.mutedCount s.silenceLevel)) := rfl

theorem quiets_hush : Quiets s s.hush := by
  unfold State.hush
  split
  · exact .refl
  · exact (quiets_cut _).trans (quiets_startHead _)
  · exact (quiets_cut _).trans (quiets_startHead _)

theorem quiets_silenceAction (source : Source) : Quiets s (s.silenceAction source) := by
  rw [State.silenceAction_eq]
  exact (((quiets_muteRecords s _).trans (quiets_hush _)).tail (Atom.setMute _ _ (.inr rfl))).tail (Atom.post _ _ rfl)

theorem quiets_closePort {p : Port} (h : (s.port p).session ≠ .lost) : Quiets s (s.closePort p) :=
  (((Atom.close s p h).quiets.trans (quiets_closeRecords _ p)).trans (quiets_arbitrate _ _)).trans
    (quiets_leaveEntries _ p true)

end

end Sys2Proof.Machine
end


-- ==== Sys2Proof/Proofs/Frames.lean ====
section
/-! PROOF. What the atoms leave unchanged, and the few things they can do to a port: the frame of every shared
operation. -/

namespace Sys2Proof.Machine

/-! ### Fields and reads of the operations the atoms are made of -/

section
variable (s : State)

/-- The slots of a state after a switch to the fallback pattern: one record changes, and two reference counts (R13). -/
theorem State.switchToFallback_of_record {i : SlotNo} {r : Record} (h : s.record i = some r) :
    s.switchToFallback i =
      State.takeRef (State.dropRef (s.setRecord i { r with pattern := fallback, introDone := false }) r.pattern)
        fallback := by
  simp only [State.switchToFallback, h]

theorem State.switchToFallback_of_free {i : SlotNo} (h : s.record i = none) : s.switchToFallback i = s := by
  simp only [State.switchToFallback, h]

/-- A switch changes the slots and the directory alone. -/
theorem State.switchToFallback_eq (i : SlotNo) :
    s.switchToFallback i =
      { s with slots := (s.switchToFallback i).slots, directory := (s.switchToFallback i).directory } := by
  cases h : s.record i with
  | none => rw [State.switchToFallback_of_free s h]
  | some r => rw [State.switchToFallback_of_record s h]; rfl

/-- A freed extent changes the Free Extent List alone. -/
theorem State.freeExtent_eq (l : Layout) : s.freeExtent l = { s with free := (s.freeExtent l).free } := by
  unfold State.freeExtent; split <;> rfl

@[simp] theorem State.freeExtent_entry (l : Layout) (n : PatNo) : (s.freeExtent l).entry n = s.entry n := by
  rw [State.freeExtent_eq]; rfl

@[simp] theorem State.freeExtent_record (l : Layout) (i : SlotNo) : (s.freeExtent l).record i = s.record i := by
  rw [State.freeExtent_eq]; rfl

theorem State.setWord_eq (i : Nat) (w : StepWord) : s.setWord i w = { s with store := (s.setWord i w).store } := by
  unfold State.setWord; split <;> rfl

/-- A change of the Play Context changes the drive beside it, and nothing else (R104). -/
theorem State.setPlay_eq (play : Play) :
    s.setPlay play = { s with play := play, drive := (s.setPlay play).drive, driveMs := (s.setPlay play).driveMs } := by
  unfold State.setPlay State.followDrive; dsimp only; split <;> rfl

theorem State.setLine_eq (line : Line) :
    s.setLine line = { s with line := line, drive := (s.setLine line).drive, driveMs := (s.setLine line).driveMs } := by
  unfold State.setLine State.followDrive; dsimp only; split <;> rfl

/-- A change of every record changes the slots alone. -/
theorem State.mapRecords_eq (change : Record → Record) :
    s.mapRecords change = { s with slots := (s.mapRecords change).slots } := by
  unfold State.mapRecords; rfl

@[simp] theorem State.port_mapRecords (change : Record → Record) (p : Port) :
    (s.mapRecords change).port p = s.port p := by simp only [State.port, State.mapRecords]

@[simp] theorem State.entry_mapRecords (change : Record → Record) (n : PatNo) :
    (s.mapRecords change).entry n = s.entry n := by simp only [State.entry, State.mapRecords]

end

/-! ### The frame of an atom -/

/-- What no shared operation changes: the Configuration Table, the panel, the clocks, the Executor's pointer, the sample
timer, and the waiting commands. -/
structure State.Frame (s t : State) : Prop where
  params : t.params = s.params
  panel : t.panel = s.panel
  lampTest : t.lampTest = s.lampTest
  flashPhase : t.flashPhase = s.flashPhase
  substituteRole : t.substituteRole = s.substituteRole
  pointer : t.pointer = s.pointer
  lineTimer : t.lineTimer = s.lineTimer
  clkin : t.clkin = s.clkin
  inReset : t.inReset = s.inReset
  pending : t.pending = s.pending

theorem State.Frame.refl (s : State) : s.Frame s := ⟨rfl, rfl, rfl, rfl, rfl, rfl, rfl, rfl, rfl, rfl⟩

theorem State.Frame.trans {s t u : State} (h : s.Frame t) (h' : t.Frame u) : s.Frame u where
  params := h'.params.trans h.params
  panel := h'.panel.trans h.panel
  lampTest := h'.lampTest.trans h.lampTest
  flashPhase := h'.flashPhase.trans h.flashPhase
  substituteRole := h'.substituteRole.trans h.substituteRole
  pointer := h'.pointer.trans h.pointer
  lineTimer := h'.lineTimer.trans h.lineTimer
  clkin := h'.clkin.trans h.clkin
  inReset := h'.inReset.trans h.inReset
  pending := h'.pending.trans h.pending

theorem Atom.frame {w : Option SlotNo} {s t : State} (h : Atom w s t) : s.Frame t := by
  cases h with
  | setPlay _ play => rw [State.setPlay_eq]; exact ⟨rfl, rfl, rfl, rfl, rfl, rfl, rfl, rfl, rfl, rfl⟩
  | setLine _ _ line => rw [State.setLine_eq]; exact ⟨rfl, rfl, rfl, rfl, rfl, rfl, rfl, rfl, rfl, rfl⟩
  | toFallback _ i => rw [State.switchToFallback_eq]; exact ⟨rfl, rfl, rfl, rfl, rfl, rfl, rfl, rfl, rfl, rfl⟩
  | discard _ _ n l => rw [State.freeExtent_eq]; exact ⟨rfl, rfl, rfl, rfl, rfl, rfl, rfl, rfl, rfl, rfl⟩
  | write _ i x => rw [State.setWord_eq]; exact ⟨rfl, rfl, rfl, rfl, rfl, rfl, rfl, rfl, rfl, rfl⟩
  | refit _ change => rw [State.mapRecords_eq]; exact ⟨rfl, rfl, rfl, rfl, rfl, rfl, rfl, rfl, rfl, rfl⟩
  | _ => exact ⟨rfl, rfl, rfl, rfl, rfl, rfl, rfl, rfl, rfl, rfl⟩

/-! ### The ports -/

/-- What a shared operation can do to a port: nothing; an event offered; a new subscription; the close of its session;
the opening of one. -/
inductive PortState.Changes (c : Params) (p : Port) (x : PortState) : PortState → Prop
  | same : Changes c p x x
  | offer (e : Event) (h : e.isOverrun = false) : Changes c p x (x.offer p e)
  | subscribe (mask : ClassMask) (attention : Bool) : Changes c p x { x with mask := mask, attention := attention }
  | close : Changes c p x { x.emptyEvents with session := .closed, keepalive := none }
  | reopen : Changes c p x
      { x.emptyEvents with
        session := .opened, mask := ClassMask.default, attention := true, keepalive := c.keepaliveStart }

theorem Atom.port_changes {w : Option SlotNo} {s t : State} (h : Atom w s t) (q : Port) :
    (s.port q).Changes s.params q (t.port q) := by
  cases h with
  | post _ e he => rw [State.port_post]; exact .offer e he
  | setPlay _ play => rw [State.port_setPlay]; exact .same
  | setLine _ _ line => rw [State.port_setLine]; exact .same
  | toFallback _ i => rw [State.switchToFallback_eq]; exact .same
  | discard _ _ n l => rw [State.freeExtent_eq]; exact .same
  | write _ i x => rw [State.port_setWord]; exact .same
  | subscribe _ p mask attention =>
    rw [State.port_setPort]
    split
    · rename_i hq; subst hq; exact .subscribe mask attention
    · exact .same
  | close _ p =>
    rw [State.closeSession, State.port_setPort]
    split
    · rename_i hq; subst hq; exact .close
    · exact .same
  | reopen _ _ p =>
    rw [State.openSession, State.port_setPort]
    split
    · rename_i hq; subst hq; exact .reopen
    · exact .same
  | refit _ change => rw [State.port_mapRecords]; exact .same
  | _ => exact .same

section
variable {c : Params} {p : Port} {x y : PortState}

@[simp] theorem PortState.offer_session (x : PortState) (p : Port) (e : Event) : (x.offer p e).session = x.session := by
  rw [PortState.offer_eq]

/-- What a port keeps through the shared operations: its requests and replies, its last-outcome, its chip select. -/
structure PortState.Frame (x y : PortState) : Prop where
  inbound : y.inbound = x.inbound
  replies : y.replies = x.replies
  lastOutcome : y.lastOutcome = x.lastOutcome
  selectLow : y.selectLow = x.selectLow

theorem PortState.Changes.frame (h : x.Changes c p y) : x.Frame y := by
  cases h with
  | offer e => rw [PortState.offer_eq]; exact ⟨rfl, rfl, rfl, rfl⟩
  | _ => exact ⟨rfl, rfl, rfl, rfl⟩

theorem PortState.Changes.not_lost (h : x.Changes c p y) (hx : x.session ≠ .lost) : y.session ≠ .lost := by
  cases h with
  | offer e => rwa [PortState.offer_session]
  | same | subscribe => exact hx
  | close | reopen => nofun

end

/-! ### Runs -/

theorem Quiets.not_lost {s t : State} (h : Quiets s t) {q : Port} (hs : (s.port q).session ≠ .lost) :
    (t.port q).session ≠ .lost := by
  induction h with
  | refl => exact hs
  | tail _ hatom ih => exact (hatom.port_changes q).not_lost ih

/-- What every atom keeps, every run of actions keeps: a return is itself a run of atoms. -/
theorem Acts.keeps {I : State → Prop} (hI : ∀ {w s t}, Atom w s t → I s → I t) {s t : State} (h : Acts s t)
    (hs : I s) : I t := by
  have hquiets : ∀ {s t : State}, Quiets s t → I s → I t := fun h hs => by
    induction h with
    | refl => exact hs
    | tail _ hatom ih => exact hI hatom ih
  induction h with
  | refl => exact hs
  | tail _ hact ih =>
    cases hact with
    | quiet h => exact hI h ih
    | settle i h hq => exact hquiets (quiets_internalReturn _ i) (hquiets hq (hI h ih))

theorem Acts.frame {s t : State} (h : Acts s t) : s.Frame t :=
  h.keeps (I := s.Frame) (fun ha hs => hs.trans ha.frame) (.refl s)

theorem Acts.port_frame {s t : State} (h : Acts s t) (q : Port) : (s.port q).Frame (t.port q) :=
  h.keeps (I := fun t => (s.port q).Frame (t.port q))
    (fun ha ⟨hi, hr, ho, hl⟩ =>
      have ⟨hi', hr', ho', hl'⟩ := (ha.port_changes q).frame
      ⟨hi'.trans hi, hr'.trans hr, ho'.trans ho, hl'.trans hl⟩)
    ⟨rfl, rfl, rfl, rfl⟩

end Sys2Proof.Machine
end


-- ==== Sys2Proof/Proofs/Commands.lean ====
section
/-! PROOF. What a command can do, said once for all of them: a command that is not the Executor's opens with a change of
its own and acts; a request is removed, served and replied to, where the service may open with a change of its own and
acts. The invariants are proved of these changes and of the atoms. -/

namespace Sys2Proof.Machine

/-! ### The changes that commands open with -/

/-- The change that a command outside the Executor opens with. -/
inductive Opens : Instr → State → State → Prop
  | stay (c : Instr) (s : State) : Opens c s s
  | powerOn (s : State) :
      Opens .powerOnReset s
        { s.blocksReset with
          store := State.reset.store, directory := State.reset.directory, free := State.reset.free }
  | pinReset (s : State) :
      Opens .pinReset s (userNumbers.foldl State.pinResetEntry s.blocksReset).pinResetBuiltIns
  | leaveReset (s : State) (prof1 prof0 : Level) (h : s.inReset = true) :
      Opens (.resetEnd prof1 prof0) s (s.leaveReset prof1 prof0)
  | tick (s : State) : Opens .tick s s.advance
  | stopClock (s : State) : Opens .clkinStop s { s with clkin := false }
  | resumeClock (s : State) : Opens .clkinResume s { s with clkin := true }
  | fallInReset (s : State) (p : Port) :
      Opens (.chipSelectFall p) s (s.setPort p { s.port p with selectLow := true })
  | fall (s : State) (p : Port) : Opens (.chipSelectFall p) s (s.setPort p (s.port p).beginTransaction)
  | clock (s : State) (p : Port) (sdi : Level) (t : Transaction) (h : (s.port p).transaction = some t) :
      Opens (.sckRisingEdge p sdi) s
        (s.setPort p { s.port p with transaction := some (t.clockBit (decide (sdi = .high))) })
  | rise (s : State) (p : Port) : Opens (.chipSelectRise p) s (s.setPort p ((s.port p).endTransaction s.params))
  | panel (c : Instr) (s : State) (panel : Panel) (lampTest : Bool)
      (ha : s.panel.ack.CountSound → panel.ack.CountSound)
      (hs : s.panel.silence.CountSound → panel.silence.CountSound)
      (ht : s.panel.test.CountSound → panel.test.CountSound) :
      Opens c s { s with panel := panel, lampTest := lampTest }
  | flash (s : State) :
      Opens .flashClockTick s { s with flashPhase := if s.flashPhase < 999 then s.flashPhase + 1 else 0 }
  | lose (s : State) (p : Port) (h : (s.port p).session = .opened) : Opens (.keepaliveExpiry p) s (s.loseSession p)
  | sample (s : State) (sense : Byte) (loop : Loop) (h : s.lineTimer = some 0) :
      Opens (.lineSample sense loop) s { s with lineTimer := some 100 }

/-- The parameters and the sample timer after the line monitor enable is turned off, with the monitor forced NORMAL
(R112). -/
def State.enableTurnedOff (s : State) (params : Params) : State :=
  State.setLine { s with params := params, lineTimer := none } (.normal 0)

/-- The change that the service of a request of port p opens with. -/
inductive Serves : Instr → Port → State → State → Prop
  | stay (c : Instr) (p : Port) (s : State) : Serves c p s s
  | create (s : State) (p : Port) (i : SlotNo) (f : RaiseFields) (l : Layout) (hf : f.InRange) (hi : i.val < Config.hostSlots)
      (hfree : s.record i = none) (hpat : (s.entry f.pattern).body = .ready l)
      (hnew : ∀ j, ∀ q ∈ s.record j, q.origin = .host p → q.tag ≠ f.tag) :
      Serves .raise p s (s.enroll i (.host p false) f)
  | realert (s : State) (p : Port) (i : SlotNo) (f : RaiseFields) (q : Record) (l : Layout) (hf : f.InRange)
      (hr : s.record i = some q) (hst : q.state ≠ .alerting) (ho : q.origin = .host p) (ht : q.tag = f.tag)
      (hpat : (s.entry f.pattern).body = .ready l) : Serves .raise p s (s.reenroll i q f)
  | configure (s : State) (p : Port) (id v : Nat) (params : Params) (hw : s.params.write id v = some params)
      (hc : (s.port p).session = .opened ∧ (s.rights p).c = true) (he : params.lineEnable = s.params.lineEnable) :
      Serves .configSet p s { s with params := params }
  | turnOn (s : State) (p : Port) (id v : Nat) (params : Params) (hw : s.params.write id v = some params)
      (hc : (s.port p).session = .opened ∧ (s.rights p).c = true)
      (hb : s.params.lineEnable = false) (ha : params.lineEnable = true) :
      Serves .configSet p s (State.setLine { s with params := params, lineTimer := some 100 } (.normal 0))
  | turnOff (s : State) (p : Port) (id v : Nat) (params : Params) (hw : s.params.write id v = some params)
      (hc : (s.port p).session = .opened ∧ (s.rights p).c = true)
      (hb : s.params.lineEnable = true) (ha : params.lineEnable = false) (hl : s.line.isFault = false) :
      Serves .configSet p s (s.enableTurnedOff params)
  | turnOffInFault (s : State) (p : Port) (id v : Nat) (params : Params) (hw : s.params.write id v = some params)
      (hc : (s.port p).session = .opened ∧ (s.rights p).c = true)
      (hb : s.params.lineEnable = true) (ha : params.lineEnable = false) (hl : s.line.isFault = true) :
      Serves .configSet p s ((s.enableTurnedOff params).internalReturn sounderFaultSlot).1

/-! ### What the service of a request answers -/

/-- The answer to a request of port p comes of a service; a refusal leaves the state alone (R137). -/
structure Answers (c : Instr) (p : Port) (s : State) (a : Answer) : Prop where
  acts : ∃ s1, Serves c p s s1 ∧ Acts s1 a.state
  refusal : a.status ≠ .ok → a.state = s

section
variable {c : Instr} {p : Port} {s : State}

theorem answers_unchanged (status : Status) (payload : List Byte) :
    Answers c p s { state := s, status := status, payload := payload } :=
  ⟨⟨s, .stay c p s, .refl⟩, fun _ => rfl⟩

theorem answers_okay_of_acts {t : State} {payload : List Byte} (h : Acts s t) : Answers c p s (t.okay payload) :=
  ⟨⟨s, .stay c p s, h⟩, fun hne => (hne rfl).elim⟩

theorem answers_okay_of_quiets {t : State} {payload : List Byte} (h : Quiets s t) : Answers c p s (t.okay payload) :=
  answers_okay_of_acts (Quiets.acts h)

theorem answers_okay_of_serves {s1 t : State} {payload : List Byte} (h : Serves c p s s1) (ha : Acts s1 t) :
    Answers c p s (t.okay payload) := ⟨⟨s1, h, ha⟩, fun hne => (hne rfl).elim⟩

theorem answers_refuse (status : Status) : Answers c p s (s.refuse status) := answers_unchanged status []

theorem answers_gate {k : Kind} {payload : List Byte} {right : Rights → Bool} {go : Answer}
    (h : (s.port p).session = .opened → right (s.rights p) = true → Answers c p s go) :
    Answers c p s (s.gate p k payload right go) := by
  unfold State.gate
  split
  · exact answers_refuse _
  · split
    · exact answers_refuse _
    · split
      · exact answers_refuse _
      · rename_i ho hr
        exact h (not_not.mp ho) (by simpa using hr)

end

/-! ### RAISE (R5 to R8) -/

/-- A pattern number field is the byte's number, in range. -/
theorem patternField_eq_some_iff (b : Byte) (n : PatNo) : patternField b = some n ↔ b.toNat = n.val := by
  unfold patternField
  split
  · simp [Fin.ext_iff]
  · have := n.isLt; simp; omega

/-- What a RAISE carries is in range (R5, Table 11.5). -/
theorem raiseFields_inRange {payload : List Byte} {f : RaiseFields} (h : raiseFields payload = some f) : f.InRange := by
  unfold raiseFields at h
  split at h
  · split at h
    · cases h
    · dsimp only at h
      split at h
      · cases h
      · split at h
        · cases h
        · split at h
          · cases h
          · obtain rfl := Option.some.inj h
            rename_i tagHi tagLo pattern base ceiling lamps mode count interval _ _ _ hrange _ hcount
            have hc := count.isLt
            have hi := interval.isLt
            refine ⟨by dsimp only; omega, by dsimp only; omega, by dsimp only; omega, ?_, ?_, ?_, by dsimp only; omega⟩ <;>
              dsimp only <;> split <;>
              simp_all [SoundMode.left, SoundMode.count, SoundMode.isCounted] <;> omega
  · cases h

theorem State.patternRefusal_none_iff (s : State) (n : PatNo) :
    s.patternRefusal n = none ↔ ∃ l, (s.entry n).body = .ready l := by
  unfold State.patternRefusal
  cases (s.entry n).body <;> simp

/-- RAISE looks up a record of the port with the tag (R5). -/
theorem State.findRecord_eq_none_iff (s : State) (p : Port) (tag : BitVec 16) :
    s.findRecord p tag = none ↔ ∀ j, ∀ q ∈ s.record j, q.origin = .host p → q.tag ≠ tag := by
  simp only [State.findRecord, List.find?_eq_none, List.mem_finRange, Option.any_eq_true, Bool.and_eq_true,
    decide_eq_true_eq, forall_const, not_exists, not_and, Option.mem_def, ne_eq]

/-- The record found is one of the port with the tag (R5). -/
theorem State.findRecord_eq_some {s : State} {p : Port} {tag : BitVec 16} {i : SlotNo}
    (h : s.findRecord p tag = some i) : ∃ q, s.record i = some q ∧ q.origin = .host p ∧ q.tag = tag := by
  have := List.find?_some h
  simpa [Option.any_eq_true] using this

/-- The slot of a new host record is a FREE host slot (R1). -/
theorem State.freeHostSlot_eq_some {s : State} {i : SlotNo} (h : s.freeHostSlot = some i) :
    i.val < Config.hostSlots ∧ s.record i = none := by
  have := List.find?_some h
  simpa using this

section
variable (p : Port) (payload : List Byte) (s : State)

theorem answers_raiseNew {f : RaiseFields} (hf : f.InRange) (hnew : s.findRecord p f.tag = none) :
    Answers .raise p s (s.raiseNew p f) := by
  unfold State.raiseNew
  split
  · exact answers_refuse _
  · rename_i hpat
    split
    · exact answers_refuse _
    · split
      · exact answers_refuse _
      · rename_i i hi
        obtain ⟨l, hl⟩ := (s.patternRefusal_none_iff _).mp hpat
        obtain ⟨hlt, hfree⟩ := State.freeHostSlot_eq_some hi
        refine answers_okay_of_serves
          (.create s p i f l hf hlt hfree hl ((s.findRecord_eq_none_iff p f.tag).mp hnew)) ?_
        rw [State.createRecord_eq_enroll]
        exact Quiets.acts ((quiets_arbitrate _ _).head (Atom.post _ _ rfl))

theorem answers_raiseMatched {f : RaiseFields} (hf : f.InRange) {i : SlotNo} {q : Record} (hr : s.record i = some q)
    (ho : q.origin = .host p) (ht : q.tag = f.tag) : Answers .raise p s (s.raiseMatched p i q f) := by
  unfold State.raiseMatched
  split
  · exact answers_okay_of_acts .refl
  · rename_i hst
    split
    · exact answers_refuse _
    · rename_i hpat
      obtain ⟨l, hl⟩ := (s.patternRefusal_none_iff _).mp hpat
      refine answers_okay_of_serves
        (.realert s p i f q l hf hr (by simpa [Record.isAlerting] using hst) ho ht hl) ?_
      rw [State.realertRecord_eq_reenroll]
      exact Quiets.acts ((quiets_arbitrate _ _).head (Atom.post _ _ rfl))

theorem answers_serveRaise : Answers .raise p s (serveRaise p payload s) := by
  refine answers_gate fun _ _ => ?_
  split
  · exact answers_refuse _
  · rename_i f hf
    split
    · rename_i hnew; exact answers_raiseNew p s (raiseFields_inRange hf) hnew
    · rename_i i hi
      obtain ⟨q, hq, ho, ht⟩ := State.findRecord_eq_some hi
      rw [hq]
      exact answers_raiseMatched p s (raiseFields_inRange hf) hq ho ht

/-! ### The other alert requests -/

theorem answers_serveClear : Answers .clear p s (serveClear p payload s) := by
  refine answers_gate fun _ _ => ?_
  split
  · exact answers_refuse _
  · split
    · exact answers_refuse _
    · split
      · exact answers_refuse _
      · split
        · exact answers_okay_of_acts .refl
        · exact answers_okay_of_quiets ((quiets_clearRecord s _ _).trans (quiets_arbitrate _ _))

theorem answers_serveAck : Answers .ack p s (serveAck p payload s) := by
  refine answers_gate fun _ _ => ?_
  split
  · exact answers_refuse _
  · split
    · exact answers_refuse _
    · split
      · exact answers_refuse _
      · split
        · exact answers_okay_of_acts .refl
        · exact answers_okay_of_quiets ((quiets_acknowledge s _ _).trans (quiets_arbitrate _ _))

theorem answers_serveAckAll : Answers .ackAll p s (serveAckAll p payload s) :=
  answers_gate fun _ _ => answers_okay_of_quiets ((quiets_acknowledgeAll s _).trans (quiets_arbitrate _ _))

theorem answers_serveSilence : Answers .silence p s (serveSilence p payload s) :=
  answers_gate fun _ _ => answers_okay_of_quiets (quiets_silenceAction s _)

theorem answers_serveAlertInfo : Answers .alertInfo p s (serveAlertInfo p payload s) := by
  refine answers_gate fun _ _ => ?_
  split
  · exact answers_refuse _
  · split
    · exact answers_refuse _
    · exact answers_okay_of_acts .refl

theorem answers_serveAlertList : Answers .alertList p s (serveAlertList p payload s) := by
  refine answers_gate fun _ _ => ?_
  split
  · exact answers_refuse _
  · exact answers_okay_of_acts .refl

theorem answers_serveStatus : Answers .status p s (serveStatus p payload s) :=
  answers_gate fun _ _ => answers_okay_of_acts .refl

/-! ### The Configuration Table (R112, R159, R160) -/

theorem answers_serveConfigGet : Answers .configGet p s (serveConfigGet p payload s) := by
  refine answers_gate fun _ _ => ?_
  split
  · split
    · exact answers_refuse _
    · exact answers_okay_of_acts .refl
  · exact answers_refuse _

/-- A parameter written, with what the line monitor enable brings about, is a service (R112, R160). -/
theorem serves_followEnable {id v : Nat} {params : Params} (hw : s.params.write id v = some params)
    (hc : (s.port p).session = .opened ∧ (s.rights p).c = true) :
    ∃ s1, Serves .configSet p s s1 ∧ Acts s1 (State.followEnable { s with params := params } s.params.lineEnable) := by
  unfold State.followEnable
  split
  · rename_i hb ha
    dsimp only
    split
    · rename_i hl
      exact ⟨_, .turnOffInFault s p id v params hw hc hb ha hl, Quiets.acts (quiets_arbitrateIf _)⟩
    · rename_i hl
      exact ⟨_, .turnOff s p id v params hw hc hb ha (by simpa using hl), .refl⟩
  · rename_i hb ha
    exact ⟨_, .turnOn s p id v params hw hc hb ha, .refl⟩
  · rename_i hoff hon
    refine ⟨_, .configure s p id v params hw hc ?_, .refl⟩
    cases hb : s.params.lineEnable <;> cases ha : params.lineEnable <;> simp_all

theorem answers_serveConfigSet : Answers .configSet p s (serveConfigSet p payload s) := by
  refine answers_gate fun ho hr => ?_
  split
  · split
    · exact answers_refuse _
    · rename_i params hw
      obtain ⟨s1, hs, ha⟩ := serves_followEnable p s hw ⟨ho, (Bool.and_eq_true _ _ ▸ hr).1⟩
      exact answers_okay_of_serves hs ha
  · exact answers_refuse _

/-! ### The pattern requests (chapter 4) -/

/-- What a PATTERN_DEFINE carries is in range (R76). -/
theorem defineFields_inRange {payload : List Byte} {n : PatNo} {length loopIndex pace : Nat}
    (h : defineFields payload = some (n, length, loopIndex, pace)) :
    1 ≤ length ∧ length ≤ 128 ∧ loopIndex < length ∧ 1 ≤ pace ∧ pace ≤ 8 := by
  unfold defineFields at h
  split at h
  · split at h
    · cases h
    · split at h
      · cases h
      · simp only [Option.some.injEq, Prod.mk.injEq] at h
        omega
  · cases h

theorem answers_servePatternDefine : Answers .patternDefine p s (servePatternDefine p payload s) := by
  refine answers_gate fun _ _ => ?_
  split
  · exact answers_refuse _
  · rename_i n length loopIndex pace hf
    obtain ⟨h1, h2, h3, h4, h5⟩ := defineFields_inRange hf
    split
    · rename_i hempty
      split
      · exact answers_unchanged _ _
      · rename_i start free hfit
        exact answers_okay_of_quiets
          (Atom.define s p n length loopIndex pace start free hempty hfit h1 h2 h3 h4 h5).quiets
    · exact answers_refuse _

theorem quiets_writeSteps (index : Nat) (steps : List Step) : Quiets s (s.writeSteps index steps) := by
  induction steps generalizing s index with
  | nil => exact .refl
  | cons st rest ih => exact (Atom.write s index st.word).quiets.trans (ih _ _)

@[simp] theorem State.entry_writeSteps (index : Nat) (steps : List Step) (n : PatNo) :
    (s.writeSteps index steps).entry n = s.entry n := by
  induction steps generalizing s index with
  | nil => rfl
  | cons st rest ih => rw [State.writeSteps, ih, State.entry_setWord]

theorem answers_servePatternAppend : Answers .patternAppend p s (servePatternAppend p payload s) := by
  refine answers_gate fun _ _ => ?_
  split
  · exact answers_refuse _
  · rename_i n steps _
    split
    · exact answers_refuse _
    · split
      · rename_i l before hbody
        split
        · exact answers_refuse _
        · split
          · exact answers_refuse _
          · split
            · exact answers_refuse _
            · rename_i hle
              have hentry := State.entry_writeSteps s (l.start.getD 0 + before) steps n
              rw [← hentry]
              exact answers_okay_of_quiets ((quiets_writeSteps s _ steps).tail
                (Atom.fill _ n l before _ (by rw [hentry]; exact hbody) (by omega)))
      · exact answers_refuse _

theorem answers_servePatternCommit : Answers .patternCommit p s (servePatternCommit p payload s) := by
  refine answers_gate fun _ _ => ?_
  split
  · exact answers_refuse _
  · split
    · exact answers_refuse _
    · split
      · rename_i l filled hbody
        split
        · exact answers_refuse _
        · split
          · exact answers_unchanged _ _
          · exact answers_okay_of_quiets ((Atom.commit s _ l filled hbody).quiets.tail (Atom.post _ _ rfl))
      · exact answers_refuse _

/-- The built-in numbers (R67). -/
theorem isBuiltIn_iff (n : PatNo) : isBuiltIn n = true ↔ n = 28 ∨ n = 29 ∨ n = 30 ∨ n = 31 := by
  revert n; decide

/-- A built-in entry that stands is READY, holds no place of the Step Store, and is as long as its fixed steps are many
(R67, Tables 3.5 and 3.6). -/
theorem State.BuiltInsStand.entry {s : State} (h : s.BuiltInsStand) {n : PatNo} (hn : isBuiltIn n = true) :
    ∃ pace, 1 ≤ pace ∧ pace ≤ 4 ∧ 1 ≤ (builtInSteps n).length ∧ (s.entry n).body = .ready
      { definer := none, start := none, length := (builtInSteps n).length, loopIndex := 0, pace := pace } := by
  rw [h n hn]
  rcases (isBuiltIn_iff n).mp hn with rfl | rfl | rfl | rfl
  · exact ⟨1, by decide, by decide, by decide, rfl⟩
  · exact ⟨1, by decide, by decide, by decide, rfl⟩
  · exact ⟨4, by decide, by decide, by decide, rfl⟩
  · exact ⟨2, by decide, by decide, by decide, rfl⟩

/-- An entry that is not READY is no built-in one, where those stand (R67). -/
theorem State.BuiltInsStand.user_of_ne_ready {s : State} (h : s.BuiltInsStand) {n : PatNo}
    (hn : ∀ l, (s.entry n).body ≠ .ready l) : isBuiltIn n = false := by
  refine Bool.eq_false_iff.mpr fun hb => ?_
  obtain ⟨pace, -, -, -, hr⟩ := h.entry hb
  exact hn _ hr

/-- An entry that may be deleted has its fields, is no built-in one where those stand, and no record names it (R79). -/
theorem State.deleteRefusal_none {s : State} {p : Port} {n : PatNo} (h : s.deleteRefusal p n = none) :
    (s.BuiltInsStand → isBuiltIn n = false) ∧ (s.entry n).body ≠ .empty ∧
      ((s.entry n).refs = 0 ∨ (s.entry n).body.nameable = false) := by
  unfold State.deleteRefusal at h
  cases hb : (s.entry n).body <;> simp only [hb] at h
  case empty => cases h
  case loading l fill => exact ⟨fun hstand => hstand.user_of_ne_ready (by simp [hb]), nofun, .inr rfl⟩
  case ready l => refine ⟨fun _ => ?_, nofun, .inl ?_⟩ <;> grind
  case damaged l => refine ⟨fun _ => ?_, nofun, .inl ?_⟩ <;> grind

/-- Deleting an entry is a run of actions: where the last DAMAGED one goes, STORE_FAULT is returned (R80, R86). -/
theorem acts_deletePattern {n : PatNo} (h : s.deleteRefusal p n = none) : Acts s (s.deletePattern p n) := by
  obtain ⟨hu, -, hrefs⟩ := State.deleteRefusal_none h
  have discards (w : Option SlotNo) {l : Layout} (hl : (s.entry n).body.layout = some l)
      (hw : w = some storeFaultSlot ∨ (s.entry n).body.isDamaged = false ∨
        0 < ((s.freeExtent l).setEntry n Entry.empty).damagedCount) :=
    Atom.discard w s n l hu hl hrefs hw
  have dropped {l : Layout} (h : Atom none s ((s.freeExtent l).setEntry n Entry.empty)) :
      Quiets s (s.dropPattern n l (.port p)) := h.quiets.tail (Atom.post _ _ rfl)
  unfold State.deletePattern
  cases hb : (s.entry n).body with
  | empty => exact .refl
  | loading l fill => exact (dropped (discards none (by rw [hb]; rfl) (.inr (.inl (by rw [hb]; rfl))))).acts
  | ready l => exact (dropped (discards none (by rw [hb]; rfl) (.inr (.inl (by rw [hb]; rfl))))).acts
  | damaged l =>
    have hl : (s.entry n).body.layout = some l := by rw [hb]; rfl
    dsimp only
    split
    · exact (Relation.ReflTransGen.single (Act.settle _ (discards _ hl (.inl rfl)) (Atom.post _ _ rfl).quiets)).trans
        (Quiets.acts (quiets_arbitrateIf _))
    · rename_i hd
      exact (dropped (discards none hl (.inr (.inr (Nat.pos_of_ne_zero hd))))).acts

theorem answers_servePatternDelete : Answers .patternDelete p s (servePatternDelete p payload s) := by
  refine answers_gate fun _ _ => ?_
  split
  · exact answers_refuse _
  · split
    · exact answers_unchanged _ _
    · exact answers_refuse _
    · rename_i h
      exact answers_okay_of_acts (acts_deletePattern p s h)

theorem answers_servePatternInfo : Answers .patternInfo p s (servePatternInfo p payload s) := by
  refine answers_gate fun _ _ => ?_
  split
  · exact answers_refuse _
  · exact answers_okay_of_acts .refl

/-- The fixed steps of a built-in entry are always read as good (R82). -/
theorem State.readSteps_of_builtIn {s : State} {n : PatNo} (h : isBuiltIn n = true) (l : Layout) (offset count : Nat) :
    s.readSteps n l offset count = (List.range count).map fun k => (builtInStep n (offset + k), true) := by
  simp [State.readSteps, h]

theorem answers_servePatternRead : Answers .patternRead p s (servePatternRead p payload s) := by
  refine answers_gate fun _ _ => ?_
  split
  · exact answers_refuse _
  · split
    · split
      · exact answers_refuse _
      · dsimp only
        split
        · exact answers_okay_of_acts .refl
        · rename_i hbad
          refine answers_okay_of_quiets ((quiets_markDamaged s (Bool.eq_false_iff.mpr fun hn => hbad ?_) _).trans
            (quiets_arbitrateIf _))
          rw [State.readSteps_of_builtIn hn]
          simp
    · split
      · exact answers_refuse _
      · exact answers_okay_of_acts .refl
    · exact answers_refuse _

/-! ### The session requests (R127 to R130, R150) -/

theorem acts_helloSession : Acts s (s.helloSession p) := by
  unfold State.helloSession
  split
  · rename_i h
    exact (Atom.reopen none s p (.inr (by rw [h]; nofun))).quiets.acts
  · exact (Relation.ReflTransGen.single
      (Act.settle _ (Atom.reopen (some (portLostSlot p)) s p (.inl rfl)) (quiets_setOrphans _ p false))).trans
        (Quiets.acts (quiets_arbitrateIf _))
  · rename_i h
    have hnot : (s.port p).session ≠ .lost := by rw [h]; nofun
    have hclose := quiets_closePort s hnot
    exact Quiets.acts (hclose.tail (Atom.reopen none _ p (.inr (Quiets.not_lost hclose hnot))))

theorem answers_serveHello : Answers .hello p s (serveHello p payload s) := by
  unfold serveHello
  split
  · exact answers_refuse _
  · exact answers_okay_of_acts ((acts_helloSession p s).tail (.quiet (Atom.post _ _ rfl)))

theorem answers_serveBye : Answers .bye p s (serveBye p payload s) :=
  answers_gate fun ho _ =>
    answers_okay_of_quiets ((quiets_closePort s (by rw [ho]; nofun)).tail (Atom.post _ _ rfl))

theorem answers_serveSubscribe : Answers .subscribe p s (serveSubscribe p payload s) := by
  refine answers_gate fun _ _ => ?_
  split
  · exact answers_refuse _
  · exact answers_okay_of_quiets (Atom.subscribe s p _ _).quiets

end

/-! ### A command, case by case -/

/-- The command stands for the Executor's taking of a request. -/
def Instr.isTaking (c : Instr) : Bool := decide (c = .unknownKind) || (requestCommands.map Prod.fst).contains c

theorem Instr.isTaking_iff (c : Instr) :
    Instr.isTaking c = true ↔ c = .unknownKind ∨ ∃ k, (c, k) ∈ requestCommands := by
  simp [Instr.isTaking]

/-- From s to t the command takes the request at the head of port p's queue, serves it and replies to it (R136). -/
structure Takes (c : Instr) (s : State) (p : Port) (r : Request) (rest : List Request) (a : Answer) (t : State) :
    Prop where
  next : s.nextPort = some p
  inbound : (s.port p).inbound = r :: rest
  answers : Answers c p (s.removeRequest p) a
  result : t = a.state.postReply p { seq := r.seq, status := a.status, payload := a.payload }

/-- What carrying out a command comes to: nothing; outside the Executor, a change of its own and a run of actions; in the
Executor, a request taken. -/
def Carried (c : Instr) (s t : State) : Prop :=
  t = s ∨ (Instr.isTaking c = false ∧ ∃ s0, Opens c s s0 ∧ Acts s0 t) ∨
    (Instr.isTaking c = true ∧ ∃ p r rest a, Takes c s p r rest a t)

theorem carried_takeRequest {c : Instr} {named : Byte → Bool} {serve : Port → List Byte → State → Answer}
    (hc : Instr.isTaking c = true) (hs : ∀ p payload s, Answers c p s (serve p payload s)) (s : State) :
    Carried c s (s.takeRequest named serve) := by
  rcases s.takeRequest_cases named serve with h | ⟨p, r, rest, hp, hr, -, h⟩
  · exact .inl h
  · exact .inr (.inr ⟨hc, p, r, rest, _, hp, hr, hs p r.payload _, h⟩)

section
variable {c : Instr} {s s0 t : State}

theorem carried_of_opens (hc : Instr.isTaking c = false) (h : Opens c s s0) (ha : Acts s0 t) : Carried c s t :=
  .inr (.inl ⟨hc, s0, h, ha⟩)

theorem carried_of_acts (hc : Instr.isTaking c = false) (ha : Acts s t) : Carried c s t :=
  carried_of_opens hc (.stay c s) ha

theorem carried_of_quiets (hc : Instr.isTaking c = false) (ha : Quiets s t) : Carried c s t :=
  carried_of_acts hc (Quiets.acts ha)

theorem carried_ite {b : Prop} [Decidable b] (h : b → Carried c s t) : Carried c s (if b then t else s) := by
  split
  · exact h ‹_›
  · exact .inl rfl

end

/-! ### The timers (chapters 1 to 3) -/

section
variable (s : State)

/-- A completed cycle changes the record in place (R16, R58). -/
theorem Record.amends_cycled (r : Record) : r.Amends r.cycled.1 := by
  obtain ⟨_, _, _, _, _, _, _, _, mode, _, _, _, _, _, _⟩ := r
  cases mode with
  | continuous => exact ⟨rfl, rfl, rfl, id, fun h h' => ⟨h, h'⟩⟩
  | counted n left =>
    unfold Record.cycled
    dsimp only
    split
    · exact ⟨rfl, rfl, rfl, id, fun ⟨h1, h2, h3, h4, _, h6, h7, h8⟩ h' =>
        ⟨⟨h1, h2, h3, h4, Nat.zero_le n, h6, h7, h8⟩, h'⟩⟩
    · exact ⟨rfl, rfl, rfl, id, fun ⟨h1, h2, h3, h4, h5, h6, h7, h8⟩ h' =>
        ⟨⟨h1, h2, h3, h4, (Nat.sub_le left 1).trans h5, h6, h7, h8⟩, h'⟩⟩

/-- An escalation changes the record in place: below the ceiling the priority has room for one more, and the deadline is
started as R14 has it (R15). -/
theorem Record.amends_escalated (r : Record) (h : r.escalationDue = true) : r.Amends r.escalated := by
  simp only [Record.escalationDue, Record.isAlerting, Bool.and_eq_true, decide_eq_true_eq] at h
  obtain ⟨⟨-, hst⟩, hlt⟩ := h
  refine ⟨rfl, rfl, rfl, id, fun ⟨h1, h2, h3, h4, h5, h6, h7, h8⟩ _ => ⟨⟨h1, ?_, ?_, h4, ?_, ?_, ?_, h8⟩, ?_, ?_⟩⟩
  · simp only [Record.escalated]; omega
  · simp only [Record.escalated]; omega
  · cases hm : r.mode <;> simp [Record.escalated, SoundMode.refilled, hm, SoundMode.left, SoundMode.count]
  · cases hm : r.mode <;> simp_all [Record.escalated, SoundMode.refilled, SoundMode.count]
  · cases hm : r.mode <;> simp_all [Record.escalated, SoundMode.refilled, SoundMode.count, SoundMode.isCounted]
  · simp only [Record.escalated, startedDeadline, hst]
    split <;> simp_all
  · simp only [Record.escalated, startedDeadline]
    split <;> simp

theorem quiets_reportCycle (i : SlotNo) : Quiets s (s.reportCycle i) := by
  unfold State.reportCycle
  split
  · exact .refl
  · rename_i r h
    have hamend := (Atom.amend s i r _ h r.amends_cycled).quiets
    dsimp only
    split
    · exact hamend.trans (quiets_postRecord _ _ _ _ _)
    · exact hamend

theorem quiets_afterCycle (owner : Handle) (now : Sounding) : Quiets s (s.afterCycle owner now) := by
  unfold State.afterCycle
  split
  · exact quiets_setPlay s _
  · split
    · exact (quiets_loadOwner s _ _).trans (quiets_afterLoad _)
    · exact (quiets_setPlay s _).trans (quiets_startHead _)

theorem quiets_plainStepEnd (owner : Handle) (now : Sounding) : Quiets s (s.plainStepEnd owner now) := by
  unfold State.plainStepEnd
  split
  · exact .refl
  · split
    · exact ((Atom.post s _ rfl).quiets.trans (quiets_setPlay _ _)).trans (quiets_startHead _)
    · exact (quiets_loadOwner s _ _).trans (quiets_afterLoad _)

theorem quiets_endStep : Quiets s s.endStep := by
  unfold State.endStep
  split
  · exact .refl
  · exact (quiets_setPlay s _).trans (quiets_startHead _)
  · split
    · exact quiets_plainStepEnd s _ _
    · exact (quiets_reportCycle s _).trans (quiets_afterCycle _ _ _)

theorem quiets_escalate (i : SlotNo) : Quiets s (s.escalate i) := by
  unfold State.escalate
  split
  · exact .refl
  · rename_i r h
    split
    · rename_i hdue
      exact ((Atom.amend s i r _ h (r.amends_escalated hdue)).quiets.trans (quiets_postRecord _ _ _ _ _)).trans
        (quiets_arbitrate _ _)
    · exact .refl

theorem quiets_resound : Quiets s s.resound :=
  (((Atom.setMute s none (.inl rfl)).quiets.trans (quiets_unmuteRecords _)).trans (quiets_arbitrate _ _)).tail
    (Atom.post _ _ rfl)

/-! ### The Line Monitor (R109 to R111) -/

theorem acts_clearFault : Acts s s.clearFault :=
  (Relation.ReflTransGen.single
    (Act.settle sounderFaultSlot (Atom.setLine _ s (.normal 0) (Nat.zero_le 3) nofun (.inl rfl)) .refl)).trans
      (Quiets.acts (quiets_arbitrateIf _))

theorem acts_declareFault (kind : FaultKind) (h : s.lineTimer.isSome = true) : Acts s (s.declareFault kind) := by
  have hline : Quiets s (s.setLine (.fault kind 0)) :=
    (Atom.setLine none s (.fault kind 0) (Nat.zero_le 15) (fun _ => .inr h) (.inr fun _ => rfl)).quiets
  exact Quiets.acts ((hline.trans (quiets_internalRaise _ (sounderFaultFields_mayRaise _ kind (by simp [Line.isFault])))).trans
    (quiets_arbitrateIf _))

theorem acts_actOnSample (sampled : Option FaultKind) (h : s.lineTimer.isSome = true) :
    Acts s (s.actOnSample sampled) := by
  have hset (line : Line) (hc : line.CountsInRange) (hw : s.line.isFault = true → line.isFault = true) :
      Acts s (s.setLine line) := Quiets.acts (Atom.setLine none s line hc (fun _ => .inr h) (.inr hw)).quiets
  unfold State.actOnSample
  split
  · rename_i hl; exact hset _ (Nat.zero_le 3) (by simp [hl, Line.isFault])
  · rename_i hl
    split
    · exact hset _ (by simp only [Line.CountsInRange]; omega) (by simp [hl, Line.isFault])
    · exact acts_declareFault s _ h
  · split
    · exact hset _ (by simp only [Line.CountsInRange]; omega) fun _ => rfl
    · exact acts_clearFault s
  · exact hset _ (Nat.zero_le 15) fun _ => rfl
  · exact hset _ (Nat.zero_le 15) fun _ => rfl

end

/-! ### The panel (R92) -/

/-- A sample keeps a button's count in range. -/
theorem Button.countSound_sample {b : Button} (h : b.CountSound) (pin : Level) : (b.sample pin).CountSound := by
  obtain ⟨state, count, accepted⟩ := b
  unfold Button.CountSound at h
  cases state <;> cases pin <;> simp only [Button.sample, Button.CountSound] at h ⊢
  case pressing.low => split <;> grind
  case releasing.high => split <;> grind
  all_goals omega

/-- Every command is carried out as one of the three. -/
theorem exec_carried {c : Instr} {s t : State} (h : exec c s = .next t) : Carried c s t := by
  cases c with
  | powerOnReset =>
    obtain rfl := Host.Outcome.next.inj (show execPowerOnReset s = .next t from h)
    exact carried_of_opens rfl (.powerOn s) .refl
  | pinReset =>
    obtain rfl := Host.Outcome.next.inj (show execPinReset s = .next t from h)
    exact carried_of_opens rfl (.pinReset s) .refl
  | resetEnd prof1 prof0 =>
    cases h
    refine carried_ite fun hr => carried_of_opens rfl (.leaveReset s prof1 prof0 hr) ?_
    dsimp only
    split
    · exact .refl
    · rename_i n _ hd
      refine Quiets.acts ((quiets_internalRaise _ (storeFaultFields_mayRaise _ n ?_)).trans (quiets_arbitrateIf _))
      rw [State.damagedCount, hd]
      exact Nat.succ_pos _
  | tick => cases h; exact carried_ite fun _ => carried_of_opens rfl (.tick s) .refl
  | clkinStop => cases h; exact carried_of_opens rfl (.stopClock s) .refl
  | clkinResume => cases h; exact carried_of_opens rfl (.resumeClock s) .refl
  | stepWordParityLoss index =>
    change execStepWordParityLoss index s = _ at h
    unfold execStepWordParityLoss at h
    split at h
    · cases h; exact carried_of_quiets rfl (Atom.write s index _).quiets
    · cases h
  | chipSelectFall p =>
    cases h
    split
    · exact .inl rfl
    · split
      · exact carried_of_opens rfl (.fallInReset s p) .refl
      · exact carried_of_opens rfl (.fall s p) .refl
  | chipSelectRise p => cases h; exact carried_of_opens rfl (.rise s p) .refl
  | unknownKind => cases h; exact carried_takeRequest rfl (fun p _ s => answers_refuse _) s
  | hello => cases h; exact carried_takeRequest rfl answers_serveHello s
  | bye => cases h; exact carried_takeRequest rfl answers_serveBye s
  | subscribe => cases h; exact carried_takeRequest rfl answers_serveSubscribe s
  | raise => cases h; exact carried_takeRequest rfl answers_serveRaise s
  | clear => cases h; exact carried_takeRequest rfl answers_serveClear s
  | ack => cases h; exact carried_takeRequest rfl answers_serveAck s
  | ackAll => cases h; exact carried_takeRequest rfl answers_serveAckAll s
  | silence => cases h; exact carried_takeRequest rfl answers_serveSilence s
  | alertInfo => cases h; exact carried_takeRequest rfl answers_serveAlertInfo s
  | alertList => cases h; exact carried_takeRequest rfl answers_serveAlertList s
  | patternDefine => cases h; exact carried_takeRequest rfl answers_servePatternDefine s
  | patternAppend => cases h; exact carried_takeRequest rfl answers_servePatternAppend s
  | patternCommit => cases h; exact carried_takeRequest rfl answers_servePatternCommit s
  | patternDelete => cases h; exact carried_takeRequest rfl answers_servePatternDelete s
  | patternInfo => cases h; exact carried_takeRequest rfl answers_servePatternInfo s
  | patternRead => cases h; exact carried_takeRequest rfl answers_servePatternRead s
  | status => cases h; exact carried_takeRequest rfl answers_serveStatus s
  | configGet => cases h; exact carried_takeRequest rfl answers_serveConfigGet s
  | configSet => cases h; exact carried_takeRequest rfl answers_serveConfigSet s
  | stepEnd => cases h; exact carried_ite fun _ => carried_of_quiets rfl (quiets_endStep s)
  | escalationExpiry slot =>
    change execEscalationExpiry slot s = _ at h
    unfold execEscalationExpiry at h
    split at h
    · cases h; exact carried_of_quiets rfl (quiets_escalate s _)
    · cases h
  | muteTimerExpiry => cases h; exact carried_ite fun _ => carried_of_quiets rfl (quiets_resound s)
  | keepaliveExpiry p =>
    change execKeepaliveExpiry p s = _ at h
    unfold execKeepaliveExpiry at h
    split at h
    · rename_i hopen
      obtain rfl := Host.Outcome.next.inj h
      refine carried_of_opens rfl (.lose s p hopen.1) (Quiets.acts ?_)
      have hlost : (((s.loseSession p).setOrphans p true).port p).session = .lost := by
        simp [State.setOrphans, State.loseSession]
      exact ((((quiets_setOrphans _ p true).trans (quiets_internalRaise _ (portLostFields_mayRaise _ hlost))).trans
        (quiets_arbitrateIf _)).trans (quiets_leaveEntries _ p false)).tail (Atom.post _ _ rfl)
    · cases h; exact .inl rfl
  | lineSample sense loop =>
    cases h
    exact carried_ite fun hdue => carried_of_opens rfl (.sample s sense loop hdue) (acts_actOnSample _ _ rfl)
  | debounceSample ackPin silencePin testPin =>
    cases h
    exact carried_ite fun _ => carried_of_opens rfl
      (.panel _ s _ s.lampTest (Button.countSound_sample · _) (Button.countSound_sample · _)
        (Button.countSound_sample · _)) .refl
  | panelAck =>
    cases h
    refine carried_ite fun _ => carried_of_opens rfl
      (.panel _ s { s.panel with ack := s.panel.ack.handedOn } s.lampTest id id id) ?_
    dsimp only
    split
    · exact Quiets.acts ((quiets_acknowledgeAll _ _).trans (quiets_arbitrate _ _))
    · exact .refl
  | panelSilence =>
    cases h
    refine carried_ite fun _ => carried_of_opens rfl
      (.panel _ s { s.panel with silence := s.panel.silence.handedOn } s.lampTest id id id) ?_
    dsimp only
    split
    · exact Quiets.acts (quiets_silenceAction _ _)
    · exact .refl
  | buttonReleaseAccepted b =>
    cases h
    cases b
    · exact carried_ite fun _ => carried_of_opens rfl
        (.panel _ s { s.panel with ack := s.panel.ack.handedOn } s.lampTest id id id) .refl
    · exact carried_ite fun _ => carried_of_opens rfl
        (.panel _ s { s.panel with silence := s.panel.silence.handedOn } s.lampTest id id id) .refl
  | lampTestBegin =>
    cases h
    exact carried_ite fun _ => carried_of_opens rfl
      (.panel _ s { s.panel with test := s.panel.test.handedOn } true id id id) .refl
  | lampTestEnd =>
    cases h
    exact carried_ite fun _ => carried_of_opens rfl
      (.panel _ s { s.panel with test := s.panel.test.handedOn } false id id id) .refl
  | flashClockTick => cases h; exact carried_ite fun _ => carried_of_opens rfl (.flash s) .refl
  | sckRisingEdge p sdi =>
    cases h
    split
    · exact .inl rfl
    · rename_i t ht; exact carried_of_opens rfl (.clock s p sdi t ht) .refl

end Sys2Proof.Machine
end


-- ==== Sys2Proof/Proofs/RecordReads.lean ====
section
/-! PROOF. What the records and the directory read as after each change of a record, and the packaging of an invariant:
what every change of a command keeps, every step keeps. -/

namespace Sys2Proof.Machine

/-! ### Records and slots after a change -/

section
variable (s : State) (i j : SlotNo)

theorem State.slot_enroll (raiser : Raiser) (f : RaiseFields) :
    (s.enroll i raiser f).slot j = if i = j then { s.slot i with record := some (f.asRecord raiser) } else s.slot j :=
  s.slot_setSlot i j _

theorem State.record_enroll (raiser : Raiser) (f : RaiseFields) :
    (s.enroll i raiser f).record j = if i = j then some (f.asRecord raiser) else s.record j :=
  s.record_setRecord i j _

theorem State.slot_reenroll (old : Record) (f : RaiseFields) :
    (s.reenroll i old f).slot j =
      if i = j then { s.slot i with record := some (f.asRecord old.raiser) } else s.slot j :=
  s.slot_setSlot i j _

theorem State.record_reenroll (old : Record) (f : RaiseFields) :
    (s.reenroll i old f).record j = if i = j then some (f.asRecord old.raiser) else s.record j :=
  s.record_setRecord i j _

theorem State.slot_vacate (r : Record) :
    (s.vacate i r).slot j = if i = j then { generation := (s.slot i).generation + 1, record := none } else s.slot j :=
  s.slot_setSlot i j _

theorem State.record_vacate (r : Record) : (s.vacate i r).record j = if i = j then none else s.record j := by
  rw [State.record, State.slot_vacate]; split <;> rfl

/-- The record of a slot after a switch to the fallback pattern (R13, R56). -/
theorem State.slot_switchToFallback :
    (s.switchToFallback i).slot j =
      if i = j then
        { s.slot i with record := (s.record i).map fun r => { r with pattern := fallback, introDone := false } }
      else s.slot j := by
  cases h : s.record i with
  | none =>
    rw [State.switchToFallback_of_free s h]
    split
    · rename_i hij; subst hij
      show s.slot i = { s.slot i with record := none }
      rw [← h]; rfl
    · rfl
  | some r => rw [State.switchToFallback_of_record s h]; exact s.slot_setRecord i j _

theorem State.record_switchToFallback :
    (s.switchToFallback i).record j =
      if i = j then (s.record i).map fun r => { r with pattern := fallback, introDone := false } else s.record j := by
  rw [State.record, State.slot_switchToFallback]; split <;> rfl

theorem State.slot_advance : s.advance.slot i = (s.slot i).countDown := by
  simp [State.slot, State.advance]

theorem State.record_advance :
    s.advance.record i = (s.record i).map fun r => { r with deadline := countDown r.deadline } := by
  rw [State.record, State.slot_advance]; rfl

theorem State.port_advance (p : Port) : s.advance.port p = (s.port p).countDown := by
  simp [State.port, State.advance]

theorem State.entry_advance (n : PatNo) : s.advance.entry n = s.entry n := by
  simp only [State.entry, State.advance]

@[simp] theorem State.advance_arrival : s.advance.arrival = s.arrival := by simp only [State.advance]
@[simp] theorem State.advance_store : s.advance.store = s.store := by simp only [State.advance]
@[simp] theorem State.advance_directory : s.advance.directory = s.directory := by simp only [State.advance]
@[simp] theorem State.advance_free : s.advance.free = s.free := by simp only [State.advance]
@[simp] theorem State.advance_panel : s.advance.panel = s.panel := by simp only [State.advance]
@[simp] theorem State.advance_lampTest : s.advance.lampTest = s.lampTest := by simp only [State.advance]
@[simp] theorem State.advance_flashPhase : s.advance.flashPhase = s.flashPhase := by simp only [State.advance]
@[simp] theorem State.advance_drive : s.advance.drive = s.drive := by simp only [State.advance]
@[simp] theorem State.advance_line : s.advance.line = s.line := by simp only [State.advance]
@[simp] theorem State.advance_pointer : s.advance.pointer = s.pointer := by simp only [State.advance]
@[simp] theorem State.advance_params : s.advance.params = s.params := by simp only [State.advance]
@[simp] theorem State.advance_clkin : s.advance.clkin = s.clkin := by simp only [State.advance]
@[simp] theorem State.advance_inReset : s.advance.inReset = s.inReset := by simp only [State.advance]
@[simp] theorem State.advance_pending : s.advance.pending = s.pending := by simp only [State.advance]

@[simp] theorem State.record_removeRequest (p : Port) : (s.removeRequest p).record i = s.record i := rfl

@[simp] theorem State.record_reset : State.reset.record i = none := by
  simp [State.record, State.slot, State.reset, Slot.reset]

end

/-! ### The directory after a change -/

section
variable (s : State) (i : SlotNo) (n : PatNo)

theorem State.entry_enroll (raiser : Raiser) (f : RaiseFields) :
    (s.enroll i raiser f).entry n =
      if f.pattern = n then { s.entry f.pattern with refs := (s.entry f.pattern).refs + 1 } else s.entry n :=
  s.entry_takeRef f.pattern n

theorem State.entry_vacate (r : Record) :
    (s.vacate i r).entry n =
      if r.pattern = n then { s.entry r.pattern with refs := (s.entry r.pattern).refs - 1 } else s.entry n :=
  s.entry_dropRef r.pattern n

theorem State.entry_reenroll (old : Record) (f : RaiseFields) :
    (s.reenroll i old f).entry n =
      if f.pattern = old.pattern then s.entry n else ((s.dropRef old.pattern).takeRef f.pattern).entry n := by
  show (if f.pattern = old.pattern then s.directory else ((s.dropRef old.pattern).takeRef f.pattern).directory)[n] = _
  split <;> rfl

theorem State.entry_switchToFallback_of_record {i : SlotNo} {r : Record} (h : s.record i = some r) :
    (s.switchToFallback i).entry n = ((s.dropRef r.pattern).takeRef fallback).entry n := by
  rw [State.switchToFallback_of_record s h]; rfl

/-- A reference moved from one entry to another keeps every entry's fields (R13). -/
theorem State.body_moveRef (a b : PatNo) : (((s.dropRef a).takeRef b).entry n).body = (s.entry n).body := by
  rw [State.entry_takeRef, State.entry_dropRef, State.entry_dropRef]
  split
  · rename_i h; subst h; split
    · rename_i h; subst h; rfl
    · rfl
  · split
    · rename_i h; subst h; rfl
    · rfl

theorem State.body_enroll (raiser : Raiser) (f : RaiseFields) :
    ((s.enroll i raiser f).entry n).body = (s.entry n).body := by
  rw [State.entry_enroll]; split
  · rename_i h; subst h; rfl
  · rfl

theorem State.body_vacate (r : Record) : ((s.vacate i r).entry n).body = (s.entry n).body := by
  rw [State.entry_vacate]; split
  · rename_i h; subst h; rfl
  · rfl

theorem State.body_reenroll (old : Record) (f : RaiseFields) :
    ((s.reenroll i old f).entry n).body = (s.entry n).body := by
  rw [State.entry_reenroll]; split
  · rfl
  · exact s.body_moveRef n _ _

theorem State.body_switchToFallback : ((s.switchToFallback i).entry n).body = (s.entry n).body := by
  cases h : s.record i with
  | none => rw [State.switchToFallback_of_free s h]
  | some r => rw [State.entry_switchToFallback_of_record s n h]; exact s.body_moveRef n _ _

end

/-! ### An invariant of the steps -/

/-- What every change that a command is made of keeps. -/
structure Kept (I : State → Prop) : Prop where
  pending : ∀ {s : State} (rest : List Instr), I s → I { s with pending := rest }
  atom : ∀ {w s t}, Atom w s t → I s → I t
  opens : ∀ {c s t}, Opens c s t → I s → I t
  remove : ∀ {s : State} (p : Port), I s → I (s.removeRequest p)
  serves : ∀ {c p s t}, Serves c p s t → I s → I t
  reply : ∀ {s : State} (p : Port) (r : Reply), I s → I (s.postReply p r)

theorem Kept.exec {I : State → Prop} (h : Kept I) {c : Instr} {s t : State} (ht : exec c s = .next t) (hs : I s) :
    I t := by
  rcases exec_carried ht with rfl | ⟨-, s0, hopens, hacts⟩ | ⟨-, p, r, rest, a, -, -, ⟨⟨s1, hserves, hacts⟩, -⟩, rfl⟩
  · exact hs
  · exact hacts.keeps h.atom (h.opens hopens hs)
  · exact h.reply p _ (hacts.keeps h.atom (h.serves hserves (h.remove p hs)))

/-- An invariant that does not speak of the Configuration Table and the Line Monitor is kept by every service, where new
and re-alerted records keep it. -/
theorem Serves.keeps {I : State → Prop} (hatom : ∀ {w s t}, Atom w s t → I s → I t)
    (hconfigure : ∀ {s : State} (params : Params) (timer : Option Nat), I s →
      I { s with params := params, lineTimer := timer })
    (hline : ∀ {s : State} (line : Line), I s → I (s.setLine line))
    {c : Instr} {p : Port} {s t : State} (ht : Serves c p s t) (hs : I s)
    (hcreate : ∀ {i f l}, t = s.enroll i (.host p false) f → f.InRange → i.val < Config.hostSlots → s.record i = none →
      (s.entry f.pattern).body = .ready l → (∀ j, ∀ q ∈ s.record j, q.origin = .host p → q.tag ≠ f.tag) → I t)
    (hrealert : ∀ {i q f l}, t = s.reenroll i q f → f.InRange → s.record i = some q → q.state ≠ .alerting →
      q.origin = .host p → q.tag = f.tag → (s.entry f.pattern).body = .ready l → I t) : I t := by
  cases ht with
  | stay => exact hs
  | create _ _ i f l hf hi hfree hpat hnew => exact hcreate rfl hf hi hfree hpat hnew
  | realert _ _ i f q l hf hr hst ho htag hpat => exact hrealert rfl hf hr hst ho htag hpat
  | configure _ _ _ _ params => exact hconfigure params s.lineTimer hs
  | turnOn _ _ _ _ params => exact hline _ (hconfigure params (some 100) hs)
  | turnOff _ _ _ _ params => exact hline _ (hconfigure params none hs)
  | turnOffInFault _ _ _ _ params =>
    exact (Quiets.acts (quiets_internalReturn _ _)).keeps hatom (hline _ (hconfigure params none hs))

/-- A step is the front command on the rest of the queue, or nothing. -/
theorem step_cases {s t : State} (h : step s = .next t) :
    t = s ∨ ∃ c rest, s.pending = c :: rest ∧ exec c { s with pending := rest } = .next t := by
  unfold step at h
  split at h
  · exact .inl (Host.Outcome.next.inj h).symm
  · rename_i c rest hp
    exact .inr ⟨c, rest, hp, h⟩

theorem Kept.step {I : State → Prop} (h : Kept I) {s t : State} (ht : step s = .next t) (hs : I s) : I t := by
  rcases step_cases ht with rfl | ⟨c, rest, -, hexec⟩
  · exact hs
  · exact h.exec hexec (h.pending rest hs)

end Sys2Proof.Machine
end


-- ==== Sys2Proof/Proofs/Resets.lean ====
section
/-! PROOF. The two resets (R90, R91): the state a power-on reset leaves, and what a pin reset makes of each directory
entry and of the Free Extent List. -/

namespace Sys2Proof.Machine

/-! ### The state both resets leave -/

section
variable (s : State)

theorem State.port_blocksReset (p : Port) : s.blocksReset.port p = (s.port p).afterReset := by
  simp [State.port, State.blocksReset]

theorem State.slot_blocksReset (i : SlotNo) : s.blocksReset.slot i = { generation := 0, record := none } := by
  simp [State.slot, State.blocksReset, State.reset, Slot.reset]

theorem State.record_blocksReset (i : SlotNo) : s.blocksReset.record i = none := by
  rw [State.record, State.slot_blocksReset]

/-- The state a power-on reset leaves (R90). -/
def State.poweredOn : State :=
  { s.blocksReset with store := State.reset.store, directory := State.reset.directory, free := State.reset.free }

theorem exec_powerOnReset : exec .powerOnReset s = .next s.poweredOn := rfl

theorem State.port_poweredOn (p : Port) : s.poweredOn.port p = (s.port p).afterReset := s.port_blocksReset p

theorem State.slot_poweredOn (i : SlotNo) : s.poweredOn.slot i = { generation := 0, record := none } :=
  s.slot_blocksReset i

theorem State.record_poweredOn (i : SlotNo) : s.poweredOn.record i = none := s.record_blocksReset i

theorem State.entry_poweredOn (n : PatNo) : s.poweredOn.entry n = State.reset.entry n := by
  simp only [State.entry, State.poweredOn]

/-- The user entries are EMPTY at a power-on reset (R90). -/
theorem State.entry_reset_of_user {n : PatNo} (h : isBuiltIn n = false) : State.reset.entry n = Entry.empty := by
  have key : ∀ n : PatNo, isBuiltIn n = false → State.reset.entry n = Entry.empty := by decide
  exact key n h

theorem State.refs_reset (n : PatNo) : (State.reset.entry n).refs = 0 := by
  have key : ∀ n : PatNo, (State.reset.entry n).refs = 0 := by decide
  exact key n

theorem State.builtInsStand_reset : State.reset.BuiltInsStand := fun _ _ => rfl

/-! ### A pin reset (R91) -/

/-- What a pin reset makes of a user entry (R91). -/
def Entry.pinReset (e : Entry) : Entry :=
  match e.body with
  | .ready l => { body := .ready { l with definer := none }, refs := 0 }
  | .damaged l => { body := .damaged { l with definer := none }, refs := 0 }
  | _ => { body := .empty, refs := 0 }

/-- The extent that a pin reset frees with an entry: a LOADING one's (R91). -/
def Entry.freedExtent (e : Entry) : Option Extent :=
  match e.body with
  | .loading _ _ => e.extent
  | _ => none

/-- The Free Extent List after the extents of some entries are freed in turn. -/
def freeAll (extents : List Extent) (free : List Extent) : List Extent :=
  extents.foldl (fun free x => insertExtent x free) free

/-- One entry at a pin reset: its own fields and the Free Extent List change, and nothing else. -/
theorem State.pinResetEntry_eq (n : PatNo) :
    s.pinResetEntry n =
      { s with
        directory := s.directory.set n (s.entry n).pinReset
        free := freeAll (s.entry n).freedExtent.toList s.free } := by
  unfold State.pinResetEntry
  split
  next h => simp only [Entry.pinReset, Entry.freedExtent, h]; rfl
  next l fill h =>
    cases hstart : l.start <;>
      simp [Entry.pinReset, Entry.freedExtent, Entry.extent, EntryBody.layout, State.freeExtent, h, hstart, freeAll,
        State.setEntry, Entry.empty]
  next l h => simp only [Entry.pinReset, Entry.freedExtent, h]; rfl
  next l h => simp only [Entry.pinReset, Entry.freedExtent, h]; rfl

theorem State.entry_pinResetEntry (n m : PatNo) :
    (s.pinResetEntry n).entry m = if n = m then (s.entry n).pinReset else s.entry m := by
  rw [State.pinResetEntry_eq]; exact s.entry_setEntry n m _

/-- From s to t nothing has changed but the directory and the Free Extent List. -/
structure State.SameButLibrary (s t : State) : Prop where
  slots : t.slots = s.slots
  arrival : t.arrival = s.arrival
  mute : t.mute = s.mute
  play : t.play = s.play
  store : t.store = s.store
  panel : t.panel = s.panel
  lampTest : t.lampTest = s.lampTest
  flashPhase : t.flashPhase = s.flashPhase
  substituteRole : t.substituteRole = s.substituteRole
  drive : t.drive = s.drive
  driveMs : t.driveMs = s.driveMs
  line : t.line = s.line
  lineTimer : t.lineTimer = s.lineTimer
  ports : t.ports = s.ports
  pointer : t.pointer = s.pointer
  params : t.params = s.params
  clkin : t.clkin = s.clkin
  inReset : t.inReset = s.inReset
  pending : t.pending = s.pending

theorem State.sameButLibrary_of_eq {s t : State} {directory : Vector Entry 32} {free : List Extent}
    (h : t = { s with directory := directory, free := free }) : s.SameButLibrary t := by
  rw [h]
  exact ⟨rfl, rfl, rfl, rfl, rfl, rfl, rfl, rfl, rfl, rfl, rfl, rfl, rfl, rfl, rfl, rfl, rfl, rfl, rfl⟩

/-- The entries of a list reset in turn. -/
theorem State.pinResetEntries_eq {l : List PatNo} (hl : l.Nodup) :
    (∀ m, (l.foldl State.pinResetEntry s).entry m = if m ∈ l then (s.entry m).pinReset else s.entry m) ∧
    (l.foldl State.pinResetEntry s).free = freeAll (l.filterMap fun n => (s.entry n).freedExtent) s.free ∧
    l.foldl State.pinResetEntry s =
      { s with
        directory := (l.foldl State.pinResetEntry s).directory, free := (l.foldl State.pinResetEntry s).free } := by
  induction l generalizing s with
  | nil => exact ⟨fun m => rfl, rfl, rfl⟩
  | cons n l ih =>
    obtain ⟨hn, hl⟩ := List.nodup_cons.mp hl
    obtain ⟨hentry, hfree, hsame⟩ := ih (s.pinResetEntry n) hl
    have hother {m : PatNo} (hm : m ∈ l) : (s.pinResetEntry n).entry m = s.entry m := by
      rw [State.entry_pinResetEntry, if_neg (by rintro rfl; exact hn hm)]
    refine ⟨fun m => ?_, ?_, ?_⟩
    · rw [List.foldl_cons, hentry]
      by_cases hm : m ∈ l
      · rw [if_pos hm, if_pos (List.mem_cons_of_mem n hm), hother hm]
      · by_cases hnm : n = m
        · subst hnm; simp [hm, State.entry_pinResetEntry]
        · simp [hm, Ne.symm hnm, hnm, State.entry_pinResetEntry]
    · have hextents : l.filterMap (fun m => ((s.pinResetEntry n).entry m).freedExtent) =
          l.filterMap fun m => (s.entry m).freedExtent :=
        List.filterMap_congr fun m hm => by rw [hother hm]
      rw [List.foldl_cons, hfree, hextents, State.pinResetEntry_eq, List.filterMap_cons]
      cases (s.entry n).freedExtent <;> rfl
    · rw [List.foldl_cons]
      conv_lhs => rw [hsame]
      rw [State.pinResetEntry_eq]

/-- The state a pin reset leaves (R91). -/
def State.pinned : State := (userNumbers.foldl State.pinResetEntry s.blocksReset).pinResetBuiltIns

theorem exec_pinReset : exec .pinReset s = .next s.pinned := rfl

theorem nodup_userNumbers : userNumbers.Nodup := (List.nodup_finRange 32).filter _

theorem State.entry_pinResetBuiltIns (n : PatNo) :
    s.pinResetBuiltIns.entry n = if isBuiltIn n then State.reset.entry n else s.entry n := by
  simp only [State.pinResetBuiltIns, List.foldl_cons, List.foldl_nil, State.entry_setEntry]
  by_cases h : isBuiltIn n = true
  · rw [if_pos h]
    rcases (isBuiltIn_iff n).mp h with rfl | rfl | rfl | rfl <;> rfl
  · rw [if_neg h]
    have hnot := mt (isBuiltIn_iff n).mpr h
    simp only [not_or] at hnot
    obtain ⟨h28, h29, h30, h31⟩ := hnot
    rw [if_neg (Ne.symm h31), if_neg (Ne.symm h30), if_neg (Ne.symm h29), if_neg (Ne.symm h28)]

/-- The directory after a pin reset (R91). -/
theorem State.entry_pinned (n : PatNo) :
    s.pinned.entry n = if isBuiltIn n then State.reset.entry n else (s.entry n).pinReset := by
  obtain ⟨hentry, -, -⟩ := s.blocksReset.pinResetEntries_eq nodup_userNumbers
  rw [State.pinned, State.entry_pinResetBuiltIns, hentry]
  by_cases h : isBuiltIn n = true
  · rw [if_pos h, if_pos h]
  · rw [if_neg h, if_neg h, if_pos ((mem_userNumbers n).mpr (by simpa using h))]
    rfl

theorem State.pinResetBuiltIns_eq : s.pinResetBuiltIns = { s with directory := s.pinResetBuiltIns.directory } := rfl

/-- A pin reset leaves every block but the Pattern Library as both resets do (R91). -/
theorem State.pinned_eq :
    s.pinned = { s.blocksReset with directory := s.pinned.directory, free := s.pinned.free } := by
  obtain ⟨-, -, hsame⟩ := s.blocksReset.pinResetEntries_eq nodup_userNumbers
  rw [State.pinned]
  generalize List.foldl State.pinResetEntry s.blocksReset userNumbers = t at hsame
  exact congrArg (fun u : State => { u with directory := t.pinResetBuiltIns.directory }) hsame

/-- The Free Extent List after a pin reset: the extents of the LOADING entries are freed in ascending order (R91). -/
theorem State.free_pinned :
    s.pinned.free = freeAll (userNumbers.filterMap fun n => (s.entry n).freedExtent) s.free := by
  obtain ⟨-, hfree, -⟩ := s.blocksReset.pinResetEntries_eq nodup_userNumbers
  rw [State.pinned]
  generalize List.foldl State.pinResetEntry s.blocksReset userNumbers = t at hfree ⊢
  exact hfree

theorem State.pinned_same : s.blocksReset.SameButLibrary s.pinned := State.sameButLibrary_of_eq s.pinned_eq

theorem State.port_pinned (p : Port) : s.pinned.port p = (s.port p).afterReset := by
  rw [State.port, s.pinned_same.ports]
  exact s.port_blocksReset p

theorem State.slot_pinned (i : SlotNo) : s.pinned.slot i = { generation := 0, record := none } :=
  (State.slot_congr s.pinned_same.slots i).trans (s.slot_blocksReset i)

theorem State.record_pinned (i : SlotNo) : s.pinned.record i = none := by
  rw [State.record, State.slot_pinned]

/-- A pin reset keeps each entry DAMAGED that was (R91). -/
theorem Entry.isDamaged_pinReset (e : Entry) : e.pinReset.body.isDamaged = e.body.isDamaged := by
  unfold Entry.pinReset; split <;> simp_all [EntryBody.isDamaged]

theorem State.damagedNumbers_pinned : s.pinned.damagedNumbers = s.damagedNumbers := by
  refine List.filter_congr fun n hn => ?_
  rw [State.entry_pinned, if_neg (by simpa using (mem_userNumbers n).mp hn), Entry.isDamaged_pinReset]

end

/-- The outputs of a state in reset: every lamp is dark, and no port is attended to (R103, R156). -/
theorem State.lampLit_of_inReset {s : State} (h : s.inReset = true) (k : Lamp) : s.lampLit k = false := by
  simp [State.lampLit, h]

theorem PortState.afterReset_eq (x : PortState) : x.afterReset = { PortState.reset with selectLow := x.selectLow } := rfl

theorem State.attention_of_closed {s : State} {p : Port} (h : (s.port p).session = .closed) : s.attention p = false := by
  simp [State.attention, h]

/-- Settles O2. -/
theorem powerOnResetEmptiesThePart : Obligations.PowerOnResetEmptiesThePart := by
  intro s
  refine ⟨s.poweredOn, exec_powerOnReset s, fun n hn => (s.entry_poweredOn n).trans (State.entry_reset_of_user hn),
    s.entry_poweredOn 28, s.entry_poweredOn 29, s.entry_poweredOn 30, s.entry_poweredOn 31, rfl, ?_, s.slot_poweredOn,
    rfl, rfl, rfl, rfl, rfl, rfl, rfl, rfl, rfl, rfl, rfl, State.lampLit_of_inReset rfl, rfl, rfl, fun p => ?_, rfl, rfl⟩
  · refine Nat.eq_zero_of_not_pos fun hpos => ?_
    obtain ⟨n, hn, hd⟩ := (damagedCount_pos_iff _).mp hpos
    rw [State.entry_poweredOn, State.entry_reset_of_user hn] at hd
    cases hd
  · have hport := s.port_poweredOn p
    have hclosed : (s.poweredOn.port p).session = .closed := by rw [hport]; rfl
    rw [hport]
    exact ⟨rfl, rfl, rfl, rfl, rfl, rfl, rfl, rfl, rfl, State.attention_of_closed hclosed⟩

/-- Settles O3, from what a pin reset makes of each entry. -/
theorem pinResetKeepsPatterns : Obligations.PinResetKeepsPatterns := by
  intro s
  have hsame := s.pinned_same
  refine ⟨s.pinned, exec_pinReset s, fun n hn => ?_, fun n hn => ?_, s.free_pinned, hsame.store,
    congrArg List.length s.damagedNumbers_pinned, s.slot_pinned, hsame.arrival, hsame.mute, hsame.play, hsame.panel,
    hsame.lampTest, hsame.flashPhase, State.lampLit_of_inReset hsame.inReset, hsame.drive, hsame.line, fun p => ?_,
    hsame.pointer, hsame.inReset⟩
  · rw [State.entry_pinned, if_neg (by simpa using hn)]
    rfl
  · rw [State.entry_pinned, if_pos hn]
  · have hport := s.port_pinned p
    have hclosed : (s.pinned.port p).session = .closed := by rw [hport]; rfl
    have hattention := State.attention_of_closed hclosed
    rw [hport]
    exact ⟨rfl, rfl, rfl, rfl, rfl, rfl, rfl, rfl, hattention⟩

end Sys2Proof.Machine
end


-- ==== Sys2Proof/Proofs/ArrivalList.lean ====
section
/-! PROOF. Every step keeps the Arrival List exact (R19): a record that enters joins the list, one that leaves is taken
off, one that is re-alerted moves to its tail, and every other change leaves the list and the occupied slots alone. -/

namespace Sys2Proof.Machine

section
variable {s t : State}

theorem State.ArrivalExact.congr (h : s.ArrivalExact) (ha : t.arrival = s.arrival)
    (hr : ∀ i, (t.record i).isSome = (s.record i).isSome) : t.ArrivalExact := by
  obtain ⟨hnodup, hmem⟩ := h
  exact ⟨ha ▸ hnodup, fun i => by rw [ha, hmem, hr]⟩

theorem State.ArrivalExact.setRecord (h : s.ArrivalExact) {i : SlotNo} {r : Record} (hi : s.record i = some r)
    (r' : Record) : (s.setRecord i r').ArrivalExact :=
  h.congr rfl fun j => by
    rw [State.record_setRecord]
    split
    · rename_i hij; subst hij; rw [hi]; rfl
    · rfl

theorem State.ArrivalExact.enroll (h : s.ArrivalExact) {i : SlotNo} (hi : s.record i = none) (raiser : Raiser)
    (f : RaiseFields) : (s.enroll i raiser f).ArrivalExact := by
  obtain ⟨hnodup, hmem⟩ := h
  have hnot : i ∉ s.arrival := by simp [hmem, hi]
  refine ⟨hnodup.append (List.nodup_singleton i) (by simpa using hnot), fun j => ?_⟩
  show j ∈ s.arrival ++ [i] ↔ _
  rw [List.mem_append, hmem, State.record_enroll, List.mem_singleton]
  by_cases hij : i = j
  · simp [hij]
  · simp [hij, Ne.symm hij]

theorem State.ArrivalExact.reenroll (h : s.ArrivalExact) (i : SlotNo) (old : Record) (f : RaiseFields) :
    (s.reenroll i old f).ArrivalExact := by
  obtain ⟨hnodup, hmem⟩ := h
  refine ⟨(hnodup.erase i).append (List.nodup_singleton i) (by simpa using hnodup.not_mem_erase), fun j => ?_⟩
  show j ∈ s.arrival.erase i ++ [i] ↔ _
  rw [List.mem_append, hnodup.mem_erase_iff, hmem, State.record_reenroll, List.mem_singleton]
  by_cases hij : i = j
  · simp [hij]
  · simp [hij, Ne.symm hij]

theorem State.ArrivalExact.vacate (h : s.ArrivalExact) (i : SlotNo) (r : Record) : (s.vacate i r).ArrivalExact := by
  obtain ⟨hnodup, hmem⟩ := h
  refine ⟨hnodup.erase i, fun j => ?_⟩
  show j ∈ s.arrival.erase i ↔ _
  rw [hnodup.mem_erase_iff, hmem, State.record_vacate]
  by_cases hij : i = j
  · simp [hij]
  · simp [hij, Ne.symm hij]

theorem State.ArrivalExact.setLine (h : s.ArrivalExact) (line : Line) : (s.setLine line).ArrivalExact := by
  rw [State.setLine_eq]; exact h

theorem State.ArrivalExact.atom {w : Option SlotNo} (ht : Atom w s t) (h : s.ArrivalExact) : t.ArrivalExact := by
  cases ht with
  | amend _ i r r' hi => exact h.setRecord hi r'
  | refit _ change => exact h.congr (by rw [State.mapRecords_eq]) fun i => by simp
  | vacate _ i r => exact h.vacate i r
  | toFallback _ i =>
    refine h.congr (by rw [State.switchToFallback_eq]) fun j => ?_
    rw [State.record_switchToFallback]
    split
    · rename_i hij; subst hij; rw [Option.isSome_map]
    · rfl
  | enroll _ i f hi => exact h.enroll hi .internal f
  | reenroll _ i old f => exact h.reenroll i old f
  | setPlay _ play => rw [State.setPlay_eq]; exact h
  | setLine _ _ line => exact h.setLine line
  | discard _ _ n l => rw [State.freeExtent_eq]; exact h
  | write _ i x => rw [State.setWord_eq]; exact h
  | _ => exact h

/-- No slot is occupied and the list is empty. -/
theorem arrivalExact_of_free (ha : s.arrival = []) (hr : ∀ i, s.record i = none) : s.ArrivalExact :=
  ⟨by simp [ha], fun i => by simp [ha, hr]⟩

theorem State.ArrivalExact.opens {c : Instr} (ht : Opens c s t) (h : s.ArrivalExact) : t.ArrivalExact := by
  cases ht with
  | powerOn => exact arrivalExact_of_free rfl s.record_poweredOn
  | pinReset => exact arrivalExact_of_free s.pinned_same.arrival s.record_pinned
  | tick => exact h.congr s.advance_arrival fun i => by rw [State.record_advance, Option.isSome_map]
  | _ => exact h

theorem State.ArrivalExact.serves {c : Instr} {p : Port} (ht : Serves c p s t) (h : s.ArrivalExact) :
    t.ArrivalExact :=
  ht.keeps State.ArrivalExact.atom (fun _ _ h => h) (fun line h => h.setLine line) h
    (fun he _ _ hfree _ _ => he ▸ h.enroll hfree _ _) (fun he _ _ _ _ _ _ => he ▸ h.reenroll _ _ _)

end

theorem kept_arrivalExact : Kept State.ArrivalExact where
  pending _ h := h
  atom := State.ArrivalExact.atom
  opens := State.ArrivalExact.opens
  remove _ h := h
  serves := State.ArrivalExact.serves
  reply _ _ h := h

/-- Settles O51: every change that a command is made of keeps the list exact. -/
theorem stepKeepsArrivalList : Obligations.StepKeepsArrivalList := fun _ _ h ht => kept_arrivalExact.step ht h

end Sys2Proof.Machine
end


-- ==== Sys2Proof/Proofs/ReferenceCounts.lean ====
section
/-! PROOF. Every step keeps the reference counts exact (R83, R84): where one slot's record changes, the number of records
that name a pattern moves by that slot alone, and the reference counts move with it. -/

namespace Sys2Proof.Machine

/-! ### Counting records that change in one slot -/

/-- A count over the slots moves by the one slot at which two tests differ. -/
theorem countP_finRange_add {f g : SlotNo → Bool} {i : SlotNo} (h : ∀ j, i ≠ j → f j = g j) :
    (List.finRange 30).countP f + (g i).toNat = (List.finRange 30).countP g + (f i).toNat := by
  have hperm := List.perm_cons_erase (List.mem_finRange i)
  have hrest : ((List.finRange 30).erase i).countP f = ((List.finRange 30).erase i).countP g :=
    List.countP_congr fun j hj => by
      rw [h j (Ne.symm ((List.nodup_finRange 30).mem_erase_iff.mp hj).1)]
  rw [hperm.countP_eq, hperm.countP_eq, List.countP_cons, List.countP_cons, hrest]
  cases f i <;> cases g i <;> simp [Nat.add_comm]

/-- The record of a slot names the pattern. -/
def State.names (s : State) (n : PatNo) (i : SlotNo) : Bool := (s.record i).any fun r => decide (r.pattern = n)

theorem State.namers_eq (s : State) (n : PatNo) : s.namers n = (List.finRange 30).countP (s.names n) := rfl

theorem State.names_of_record {s : State} {i : SlotNo} {r : Record} (h : s.record i = some r) (n : PatNo) :
    s.names n i = decide (r.pattern = n) := by
  simp [State.names, h]

theorem State.names_of_free {s : State} {i : SlotNo} (h : s.record i = none) (n : PatNo) : s.names n i = false := by
  simp [State.names, h]

section
variable {s t : State}

theorem State.namers_add {i : SlotNo} (h : ∀ j, i ≠ j → t.record j = s.record j) (n : PatNo) :
    t.namers n + (s.names n i).toNat = s.namers n + (t.names n i).toNat :=
  countP_finRange_add fun j hj => by simp only [State.names, h j hj]

theorem State.namers_congr (h : ∀ i n, t.names n i = s.names n i) (n : PatNo) : t.namers n = s.namers n := by
  rw [State.namers_eq, State.namers_eq]
  exact List.countP_congr fun i _ => by rw [h]

/-- No record names a pattern exactly where none is counted. -/
theorem State.namers_eq_zero_iff (n : PatNo) : s.namers n = 0 ↔ ∀ i, ∀ r ∈ s.record i, r.pattern ≠ n := by
  simp [State.namers_eq, List.countP_eq_zero, State.names, Option.any_eq_true]

theorem State.CountsExact.refs_pos (h : s.CountsExact) {i : SlotNo} {r : Record} (hi : s.record i = some r) :
    1 ≤ (s.entry r.pattern).refs := by
  obtain ⟨hrefs, -, -⟩ := h
  rw [hrefs, Nat.one_le_iff_ne_zero, Ne, State.namers_eq_zero_iff]
  exact fun hnone => hnone i r hi rfl

/-- No record names an entry that is EMPTY or LOADING, or has no reference. -/
theorem State.CountsExact.namers_eq_zero (h : s.CountsExact) {n : PatNo}
    (hn : (s.entry n).refs = 0 ∨ (s.entry n).body.nameable = false) : s.namers n = 0 := by
  obtain ⟨hrefs, hnameable, -⟩ := h
  rcases hn with hn | hn
  · rw [← hrefs, hn]
  · rw [State.namers_eq_zero_iff]
    rintro i r hr rfl
    rw [hnameable i r hr] at hn
    cases hn

/-! ### What keeps the counts -/

theorem State.CountsExact.congr (h : s.CountsExact) (hr : ∀ i n, t.names n i = s.names n i)
    (he : ∀ n, t.entry n = s.entry n) : t.CountsExact := by
  obtain ⟨hrefs, hnameable, hstand⟩ := h
  refine ⟨fun n => by rw [he, hrefs, State.namers_congr hr], fun i r hi => ?_, fun n hn => by rw [he]; exact hstand n hn⟩
  have hnames := hr i r.pattern
  rw [State.names_of_record hi, decide_eq_true rfl] at hnames
  obtain ⟨q, hq, hpat⟩ := (Option.any_eq_true _ _).mp hnames.symm
  rw [he, ← of_decide_eq_true hpat]
  exact hnameable i q hq

/-- One slot's record changes, and the reference counts follow. -/
theorem State.CountsExact.change (h : s.CountsExact) (i : SlotNo) (hr : ∀ j, i ≠ j → t.record j = s.record j)
    (hb : ∀ n, (t.entry n).body = (s.entry n).body)
    (hrefs : ∀ n, (t.entry n).refs + (s.names n i).toNat = (s.entry n).refs + (t.names n i).toNat)
    (hn : ∀ r ∈ t.record i, (s.entry r.pattern).body.nameable = true) : t.CountsExact := by
  obtain ⟨hexact, hnameable, hstand⟩ := h
  refine ⟨fun n => ?_, fun j r hj => ?_, fun n hbuilt => by rw [hb]; exact hstand n hbuilt⟩
  · have hadd := State.namers_add hr n
    have := hrefs n
    rw [hexact] at this
    omega
  · rw [hb]
    by_cases hij : i = j
    · subst hij; exact hn r hj
    · rw [hr j hij] at hj; exact hnameable j r hj

/-- One entry changes, which no record names unless it stays nameable. -/
theorem State.CountsExact.setEntry (h : s.CountsExact) {n : PatNo} {e : Entry} (hu : isBuiltIn n = false)
    (hrefs : e.refs = s.namers n) (hn : e.body.nameable = true ∨ s.namers n = 0) : (s.setEntry n e).CountsExact := by
  obtain ⟨hexact, hnameable, hstand⟩ := h
  refine ⟨fun m => ?_, fun i r hr => ?_, fun m hm => ?_⟩
  · show ((s.setEntry n e).entry m).refs = s.namers m
    rw [State.entry_setEntry]
    split
    · rename_i hnm; subst hnm; exact hrefs
    · exact hexact m
  · rw [State.entry_setEntry]
    split
    · rename_i hnm
      rcases hn with hn | hn
      · exact hn
      · exact (((State.namers_eq_zero_iff n).mp hn) i r hr hnm.symm).elim
    · exact hnameable i r hr
  · rw [State.entry_setEntry, if_neg]
    · exact hstand m hm
    · rintro rfl; rw [hu] at hm; cases hm

/-! ### The changes of a record -/

/-- A built-in entry may be named (R67). -/
theorem State.BuiltInsStand.nameable (h : s.BuiltInsStand) {n : PatNo} (hn : isBuiltIn n = true) :
    (s.entry n).body.nameable = true := by
  obtain ⟨pace, -, -, -, hb⟩ := h.entry hn
  rw [hb]; rfl

theorem State.CountsExact.enroll (h : s.CountsExact) {i : SlotNo} (hi : s.record i = none) (raiser : Raiser)
    {f : RaiseFields} (hf : (s.entry f.pattern).body.nameable = true) : (s.enroll i raiser f).CountsExact := by
  have hself : (s.enroll i raiser f).record i = some (f.asRecord raiser) := by rw [State.record_enroll, if_pos rfl]
  refine h.change i (fun j hj => by rw [State.record_enroll, if_neg hj]) (s.body_enroll i · raiser f) (fun n => ?_) ?_
  · rw [State.names_of_free hi, State.names_of_record hself, State.entry_enroll]
    show _ = (s.entry n).refs + (decide (f.pattern = n)).toNat
    split
    · rename_i hn; subst hn; simp
    · rename_i hn; simp [hn]
  · intro r hr
    rw [hself] at hr
    cases hr
    exact hf

theorem State.refs_moveRef (s : State) (a b n : PatNo) (ha : 1 ≤ (s.entry a).refs) :
    (((s.dropRef a).takeRef b).entry n).refs + (decide (a = n)).toNat =
      (s.entry n).refs + (decide (b = n)).toNat := by
  rw [State.entry_takeRef, State.entry_dropRef, State.entry_dropRef]
  by_cases hb : b = n
  · subst hb
    by_cases hab : a = b
    · subst hab; simp; omega
    · simp [hab]
  · by_cases han : a = n
    · subst han; simp [hb]; omega
    · simp [hb, han]

theorem State.CountsExact.reenroll (h : s.CountsExact) {i : SlotNo} {old : Record} (hi : s.record i = some old)
    {f : RaiseFields} (hf : (s.entry f.pattern).body.nameable = true) : (s.reenroll i old f).CountsExact := by
  have hself : (s.reenroll i old f).record i = some (f.asRecord old.raiser) := by
    rw [State.record_reenroll, if_pos rfl]
  refine h.change i (fun j hj => by rw [State.record_reenroll, if_neg hj]) (s.body_reenroll i · old f) (fun n => ?_) ?_
  · rw [State.names_of_record hi, State.names_of_record hself, State.entry_reenroll]
    show _ = (s.entry n).refs + (decide (f.pattern = n)).toNat
    split
    · rename_i hp; rw [hp]
    · exact s.refs_moveRef _ _ n (h.refs_pos hi)
  · intro r hr
    rw [hself] at hr
    cases hr
    exact hf

theorem State.CountsExact.vacate (h : s.CountsExact) {i : SlotNo} {r : Record} (hi : s.record i = some r) :
    (s.vacate i r).CountsExact := by
  have hself : (s.vacate i r).record i = none := by rw [State.record_vacate, if_pos rfl]
  have hpos := h.refs_pos hi
  refine h.change i (fun j hj => by rw [State.record_vacate, if_neg hj]) (s.body_vacate i · r) (fun n => ?_) ?_
  · rw [State.names_of_record hi, State.names_of_free hself, State.entry_vacate]
    split
    · rename_i hn; subst hn; simp; omega
    · rename_i hn; simp [hn]
  · rw [hself]; nofun

theorem State.CountsExact.setRecord (h : s.CountsExact) {i : SlotNo} {r r' : Record} (hi : s.record i = some r)
    (hp : r'.pattern = r.pattern) : (s.setRecord i r').CountsExact := by
  refine h.congr (fun j n => ?_) fun n => rfl
  rw [State.names, State.record_setRecord]
  split
  · rename_i hij; subst hij; rw [State.names_of_record hi]; simp [hp]
  · rfl

theorem State.CountsExact.switchToFallback (h : s.CountsExact) (i : SlotNo) : (s.switchToFallback i).CountsExact := by
  cases hi : s.record i with
  | none => rw [State.switchToFallback_of_free s hi]; exact h
  | some r =>
    have hself : (s.switchToFallback i).record i = some { r with pattern := fallback, introDone := false } := by
      rw [State.record_switchToFallback, if_pos rfl, hi]; rfl
    refine h.change i (fun j hj => by rw [State.record_switchToFallback, if_neg hj]) (s.body_switchToFallback i ·)
      (fun n => ?_) ?_
    · rw [State.names_of_record hi, State.names_of_record hself, State.entry_switchToFallback_of_record s n hi]
      exact s.refs_moveRef _ _ n (h.refs_pos hi)
    · intro q hq
      rw [hself] at hq
      cases hq
      exact h.2.2.nameable rfl

theorem State.CountsExact.mapRecords (h : s.CountsExact) {change : Record → Record} (hc : Refits change) :
    (s.mapRecords change).CountsExact := by
  refine h.congr (fun i n => ?_) (s.entry_mapRecords change ·)
  rw [State.names, State.record_mapRecords, State.names]
  cases s.record i with
  | none => rfl
  | some r =>
    obtain ⟨raiser, muted, -, hr⟩ := hc r
    simp [hr]

theorem State.CountsExact.setLine (h : s.CountsExact) (line : Line) : (s.setLine line).CountsExact := by
  rw [State.setLine_eq]; exact h

theorem State.CountsExact.atom {w : Option SlotNo} (ht : Atom w s t) (h : s.CountsExact) : t.CountsExact := by
  have ⟨hrefs, _, hstand⟩ := h
  cases ht with
  | amend _ i r r' hi ha => exact h.setRecord hi ha.pattern
  | refit _ change hc => exact h.mapRecords hc
  | vacate _ i r hi => exact h.vacate hi
  | toFallback _ i => exact h.switchToFallback i
  | enroll _ i f hi hm => exact h.enroll hi .internal (hstand.nameable hm.builtIn)
  | reenroll _ i old f hi _ hm => exact h.reenroll hi (hstand.nameable hm.builtIn)
  | damage _ n l hu hb => exact h.setEntry hu (hrefs n) (.inl rfl)
  | disownReady _ n l hu hb => exact h.setEntry hu (hrefs n) (.inl rfl)
  | disownDamaged _ n l hu hb => exact h.setEntry hu (hrefs n) (.inl rfl)
  | discard _ _ n l hu hl hr =>
    have hzero := h.namers_eq_zero hr
    rw [State.freeExtent_eq]
    exact State.CountsExact.setEntry (s := { s with free := _ }) h (hu hstand) hzero.symm (.inr hzero)
  | define _ p n length loopIndex pace start free hb =>
    have hzero := h.namers_eq_zero (n := n) (.inr (by rw [hb]; rfl))
    exact State.CountsExact.setEntry (s := { s with free := free }) h
      (hstand.user_of_ne_ready (by rw [hb]; nofun)) hzero.symm (.inr hzero)
  | fill _ n l before after hb =>
    exact h.setEntry (hstand.user_of_ne_ready (by rw [hb]; nofun)) (hrefs n)
      (.inr (h.namers_eq_zero (.inr (by rw [hb]; rfl))))
  | commit _ n l filled hb =>
    exact h.setEntry (hstand.user_of_ne_ready (by rw [hb]; nofun)) (hrefs n) (.inl rfl)
  | setPlay _ play => rw [State.setPlay_eq]; exact h
  | setLine _ _ line => exact h.setLine line
  | write _ i x => rw [State.setWord_eq]; exact h
  | _ => exact h

/-- With no record and no reference, the counts are exact. -/
theorem countsExact_of_free (hr : ∀ i, s.record i = none) (he : ∀ n, (s.entry n).refs = 0) (hstand : s.BuiltInsStand) :
    s.CountsExact := by
  refine ⟨fun n => ?_, fun i r hi => ?_, hstand⟩
  · rw [he, eq_comm, State.namers_eq_zero_iff]
    intro i r hi
    rw [hr] at hi
    cases hi
  · rw [hr] at hi
    cases hi

theorem State.CountsExact.opens {c : Instr} (ht : Opens c s t) (h : s.CountsExact) : t.CountsExact := by
  cases ht with
  | powerOn =>
    exact countsExact_of_free s.record_poweredOn (fun n => by rw [← State.poweredOn, s.entry_poweredOn, State.refs_reset])
      (fun n _ => by rw [← State.poweredOn, s.entry_poweredOn])
  | pinReset =>
    refine countsExact_of_free s.record_pinned (fun n => ?_) fun n hn => ?_
    · rw [← State.pinned, s.entry_pinned]
      split
      · exact State.refs_reset n
      · unfold Entry.pinReset; split <;> rfl
    · rw [← State.pinned, s.entry_pinned, if_pos hn]
  | tick =>
    refine h.congr (fun i n => ?_) s.entry_advance
    rw [State.names, State.record_advance, State.names]
    cases s.record i <;> rfl
  | _ => exact h

theorem State.CountsExact.serves {c : Instr} {p : Port} (ht : Serves c p s t) (h : s.CountsExact) : t.CountsExact :=
  ht.keeps State.CountsExact.atom (fun _ _ h => h) (fun line h => h.setLine line) h
    (fun he _ _ hfree hpat _ => he ▸ h.enroll hfree _ (by rw [hpat]; rfl))
    (fun he _ hr _ _ _ hpat => he ▸ h.reenroll hr (by rw [hpat]; rfl))

end

theorem kept_countsExact : Kept State.CountsExact where
  pending _ h := h
  atom := State.CountsExact.atom
  opens := State.CountsExact.opens
  remove _ h := h
  serves := State.CountsExact.serves
  reply _ _ h := h

/-- Settles O50: every change that a command is made of moves the counts with the records. -/
theorem stepKeepsReferenceCounts : Obligations.StepKeepsReferenceCounts := fun _ _ h ht => kept_countsExact.step ht h

end Sys2Proof.Machine
end


-- ==== Sys2Proof/Proofs/RecordsSound.lean ====
section
/-! PROOF. Every step keeps each record's priorities, cycles left and deadline as Table 1.2 has them, and the parameters
in range (R14, R15, R157): what a raise carries is in range, and no change of a record leaves its ranges. -/

namespace Sys2Proof.Machine

/-- A record raised or re-alerted with fields in range is sound, its deadline started as R14 has it. -/
theorem RaiseFields.InRange.asRecord {f : RaiseFields} (h : f.InRange) (raiser : Raiser) :
    (f.asRecord raiser).InRange ∧ (f.asRecord raiser).DeadlineStands := by
  obtain ⟨h1, h2, h3, h4, h5, h6, h7⟩ := h
  refine ⟨⟨h1, Nat.le_refl _, h2, h3, h4, h5, h6, h7⟩, ?_, ?_⟩
  · by_cases hd : f.interval ≠ 0 ∧ f.base < f.ceiling <;> simp [RaiseFields.asRecord, hd]
  · show (if f.interval ≠ 0 ∧ f.base < f.ceiling then some (f.interval * 1000) else none).getD 0 ≤ _
    split <;> simp [RaiseFields.asRecord]

/-- A parameter written keeps the parameters in range (R159). -/
theorem Params.write_inRange {c c' : Params} {id v : Nat} (h : c.InRange) (hw : c.write id v = some c') :
    c'.InRange := by
  unfold Params.write at hw
  unfold Params.InRange at h
  split at hw
  all_goals
    first
    | cases hw
    | split at hw
      · obtain rfl := Option.some.inj hw
        unfold Params.InRange
        dsimp only
        omega
      · cases hw

theorem Params.default_inRange (profile : Fin 4) : (Params.default profile).InRange := by
  simp [Params.InRange, Params.default]

section
variable {s t : State}

theorem State.RecordsSound.setSlot (h : s.RecordsSound) {i : SlotNo}
    (hother : ∀ j, i ≠ j → t.record j = s.record j) (hself : ∀ r ∈ t.record i, r.InRange ∧ r.DeadlineStands) :
    t.RecordsSound := fun j r hr => by
  by_cases hij : i = j
  · subst hij; exact hself r hr
  · exact h j r (hother j hij ▸ hr)

theorem State.RecordsSound.enroll (h : s.RecordsSound) (i : SlotNo) (raiser : Raiser) {f : RaiseFields}
    (hf : f.InRange) : (s.enroll i raiser f).RecordsSound := by
  refine h.setSlot (i := i) (fun j hj => by rw [State.record_enroll, if_neg hj]) fun r hr => ?_
  rw [State.record_enroll, if_pos rfl] at hr
  cases hr
  exact hf.asRecord raiser

theorem State.RecordsSound.reenroll (h : s.RecordsSound) (i : SlotNo) (old : Record) {f : RaiseFields}
    (hf : f.InRange) : (s.reenroll i old f).RecordsSound := by
  refine h.setSlot (i := i) (fun j hj => by rw [State.record_reenroll, if_neg hj]) fun r hr => ?_
  rw [State.record_reenroll, if_pos rfl] at hr
  cases hr
  exact hf.asRecord old.raiser

theorem State.RecordsSound.atom {w : Option SlotNo} (ht : Atom w s t) (h : s.RecordsSound)
    (hp : s.params.InRange) : t.RecordsSound := by
  cases ht with
  | amend _ i r r' hi ha =>
    refine h.setSlot (i := i) (fun j hj => by rw [State.record_setRecord, if_neg hj]) fun q hq => ?_
    rw [State.record_setRecord, if_pos rfl] at hq
    cases hq
    obtain ⟨hrange, hdeadline⟩ := h i r hi
    exact ha.sound hrange hdeadline
  | refit _ change hc =>
    intro i q hq
    rw [State.record_mapRecords] at hq
    obtain ⟨r, hr, rfl⟩ := Option.map_eq_some_iff.mp hq
    obtain ⟨raiser, muted, -, hchange⟩ := hc r
    rw [hchange]
    exact h i r hr
  | vacate _ i r hi =>
    refine h.setSlot (i := i) (fun j hj => by rw [State.record_vacate, if_neg hj]) ?_
    rw [State.record_vacate, if_pos rfl]
    nofun
  | toFallback _ i =>
    refine h.setSlot (i := i) (fun j hj => by rw [State.record_switchToFallback, if_neg hj]) fun q hq => ?_
    rw [State.record_switchToFallback, if_pos rfl] at hq
    obtain ⟨r, hr, rfl⟩ := Option.map_eq_some_iff.mp hq
    exact h i r hr
  | enroll _ i f hi hm => exact h.enroll i .internal (hm.range hp)
  | reenroll _ i old f hi _ hm => exact h.reenroll i old (hm.range hp)
  | setPlay _ play => rw [State.setPlay_eq]; exact h
  | setLine _ _ line => rw [State.setLine_eq]; exact h
  | discard _ _ n l => rw [State.freeExtent_eq]; exact h
  | write _ i x => rw [State.setWord_eq]; exact h
  | _ => exact h

/-- The records are sound and the parameters in range. -/
def State.Ranged (s : State) : Prop := s.RecordsSound ∧ s.params.InRange

theorem State.Ranged.atom {w : Option SlotNo} (ht : Atom w s t) (h : s.Ranged) : t.Ranged := by
  obtain ⟨hr, hp⟩ := h
  exact ⟨hr.atom ht hp, ht.frame.params ▸ hp⟩

theorem recordsSound_of_free (h : ∀ i, s.record i = none) : s.RecordsSound := fun i r hr => by
  rw [h i] at hr
  cases hr

/-- A tick keeps a deadline that stands standing. -/
theorem Record.DeadlineStands.countDown {r : Record} (h : r.DeadlineStands) :
    Record.DeadlineStands { r with deadline := Sys2Proof.Machine.countDown r.deadline } := by
  obtain ⟨hiff, hle⟩ := h
  refine ⟨by simpa [Sys2Proof.Machine.countDown] using hiff, ?_⟩
  cases hd : r.deadline with
  | none => simp [Sys2Proof.Machine.countDown]
  | some left =>
    simp only [hd, Option.getD_some] at hle
    simp only [Sys2Proof.Machine.countDown, Option.map_some, Option.getD_some]
    omega

theorem State.Ranged.opens {c : Instr} (ht : Opens c s t) (h : s.Ranged) : t.Ranged := by
  cases ht with
  | powerOn => exact ⟨recordsSound_of_free s.record_poweredOn, Params.default_inRange _⟩
  | pinReset =>
    refine ⟨recordsSound_of_free s.record_pinned, ?_⟩
    rw [← State.pinned, s.pinned_same.params]
    exact Params.default_inRange _
  | leaveReset => exact ⟨h.1, Params.default_inRange _⟩
  | tick =>
    refine ⟨fun i q hq => ?_, by rw [State.advance_params]; exact h.2⟩
    rw [State.record_advance] at hq
    obtain ⟨r, hr, rfl⟩ := Option.map_eq_some_iff.mp hq
    obtain ⟨hrange, hdeadline⟩ := h.1 i r hr
    exact ⟨hrange, hdeadline.countDown⟩
  | _ => exact h

theorem State.Ranged.serves {c : Instr} {p : Port} (ht : Serves c p s t) (h : s.Ranged) : t.Ranged := by
  obtain ⟨hr, hp⟩ := h
  have hset (params : Params) (timer : Option Nat) (hw : params.InRange) :
      (State.setLine { s with params := params, lineTimer := timer } (.normal 0)).Ranged := by
    rw [State.setLine_eq]
    exact ⟨hr, hw⟩
  cases ht with
  | stay => exact ⟨hr, hp⟩
  | create _ _ i f l hf => exact ⟨hr.enroll i _ hf, hp⟩
  | realert _ _ i f q l hf => exact ⟨hr.reenroll i q hf, hp⟩
  | configure _ _ id v params hw => exact ⟨hr, Params.write_inRange hp hw⟩
  | turnOn _ _ id v params hw => exact hset params _ (Params.write_inRange hp hw)
  | turnOff _ _ id v params hw => exact hset params _ (Params.write_inRange hp hw)
  | turnOffInFault _ _ id v params hw =>
    exact (Quiets.acts (quiets_internalReturn _ _)).keeps State.Ranged.atom (hset params _ (Params.write_inRange hp hw))

end

theorem kept_ranged : Kept State.Ranged where
  pending _ h := h
  atom := State.Ranged.atom
  opens := State.Ranged.opens
  remove _ h := h
  serves := State.Ranged.serves
  reply _ _ h := h

/-- Settles O57. -/
theorem stepKeepsRecordsSound : Obligations.StepKeepsRecordsSound :=
  fun _ _ hr hp ht => kept_ranged.step ht ⟨hr, hp⟩

end Sys2Proof.Machine
end


-- ==== Sys2Proof/Proofs/PortQueues.lean ====
section
/-! PROOF. Every step keeps each port's queues as R124, R151 and R152 have them: requests and replies at most 4 together,
and an event queue of at most 15 ordinary entries with at most one OVERRUN entry after them. -/

namespace Sys2Proof.Machine

/-! ### The requests and replies of a port (R124) -/

theorem PortState.Frame.refl (x : PortState) : x.Frame x := ⟨rfl, rfl, rfl, rfl⟩

theorem PortState.Frame.load {x y : PortState} (h : x.Frame y) : y.load = x.load := by
  rw [PortState.load, PortState.load, h.inbound, h.replies]

theorem Serves.port_frame {c : Instr} {p : Port} {s t : State} (h : Serves c p s t) (q : Port) :
    (s.port q).Frame (t.port q) := by
  cases h with
  | turnOn _ _ _ _ params => rw [State.port_setLine]; exact .refl _
  | turnOff _ _ _ _ params => rw [State.enableTurnedOff, State.port_setLine]; exact .refl _
  | turnOffInFault _ _ _ _ params =>
    have hreturn := (Quiets.acts (quiets_internalReturn (s.enableTurnedOff params) sounderFaultSlot)).port_frame q
    rwa [State.enableTurnedOff, State.port_setLine] at hreturn
  | _ => exact .refl _

/-- Serving a request leaves the requests and replies of every port alone; the reply comes after. -/
theorem Answers.port_frame {c : Instr} {p : Port} {s : State} {a : Answer} (h : Answers c p s a) (q : Port) :
    (s.port q).Frame (a.state.port q) := by
  obtain ⟨s1, hserves, hacts⟩ := h.acts
  have ⟨hi, hr, ho, hl⟩ := hserves.port_frame q
  have ⟨hi', hr', ho', hl'⟩ := hacts.port_frame q
  exact ⟨hi'.trans hi, hr'.trans hr, ho'.trans ho, hl'.trans hl⟩

section
variable {x : PortState}

@[simp] theorem PortState.load_restartKeepalive (c : Params) : (x.restartKeepalive c).load = x.load := by
  unfold PortState.restartKeepalive; split <;> rfl

theorem PortState.load_offerRequest_le (h : x.load ≤ 4) (r : Request) : (x.offerRequest r).load ≤ 4 := by
  unfold PortState.offerRequest
  split
  · rename_i hlt
    simp only [PortState.load, List.length_append, List.length_singleton] at hlt ⊢
    omega
  · exact h

theorem PortState.load_judgeFrame_le (h : x.load ≤ 4) (c : Params) (received : List Byte) :
    (x.judgeFrame c received).load ≤ 4 := by
  unfold PortState.judgeFrame
  split
  · exact h
  · rw [PortState.load_restartKeepalive]; exact h
  · rw [PortState.load_restartKeepalive]; exact PortState.load_offerRequest_le h _

theorem PortState.load_removeOutbound_le (t : Transaction) : (x.removeOutbound t).load ≤ x.load := by
  unfold PortState.removeOutbound
  split
  · split
    · simp [PortState.load]
    all_goals exact Nat.le_refl _
  · exact Nat.le_refl _

theorem PortState.load_endTransaction_le (h : x.load ≤ 4) (c : Params) : (x.endTransaction c).load ≤ 4 := by
  unfold PortState.endTransaction
  split
  · exact h
  · rename_i t _
    dsimp only
    split
    · exact h
    · exact PortState.load_judgeFrame_le
        ((PortState.load_removeOutbound_le (x := { x with selectLow := false, transaction := none }) t).trans h) c _

end

/-- What holds of every port after one port is replaced. -/
theorem forall_port_setPort {P : PortState → Prop} {s : State} (h : ∀ q, P (s.port q)) (p : Port) {x : PortState}
    (hx : P x) (q : Port) : P ((s.setPort p x).port q) := by
  rw [State.port_setPort]
  split
  · exact hx
  · exact h q

theorem State.LoadsBounded.opens {c : Instr} {s t : State} (ht : Opens c s t) (h : s.LoadsBounded) :
    t.LoadsBounded := by
  cases ht with
  | powerOn =>
    intro p
    rw [← State.poweredOn, s.port_poweredOn]
    exact Nat.zero_le 4
  | pinReset =>
    intro p
    rw [← State.pinned, s.port_pinned]
    exact Nat.zero_le 4
  | tick => exact fun p => by rw [State.port_advance]; exact h p
  | fallInReset _ p => exact forall_port_setPort (P := fun x => x.load ≤ 4) h p (h p)
  | fall _ p => exact forall_port_setPort (P := fun x => x.load ≤ 4) h p (h p)
  | clock _ p => exact forall_port_setPort (P := fun x => x.load ≤ 4) h p (h p)
  | rise _ p => exact forall_port_setPort (P := fun x => x.load ≤ 4) h p (PortState.load_endTransaction_le (h p) _)
  | lose _ p => exact forall_port_setPort (P := fun x => x.load ≤ 4) h p (Nat.zero_le 4)
  | _ => exact h

/-- A request taken makes the room that its reply takes. -/
theorem State.LoadsBounded.takes {c : Instr} {s t : State} {p : Port} {r : Request} {rest : List Request} {a : Answer}
    (ht : Takes c s p r rest a t) (h : s.LoadsBounded) : t.LoadsBounded := by
  intro q
  have hload := (ht.answers.port_frame q).load
  have hq := h q
  rw [ht.result, State.port_postReply]
  split
  · rename_i hpq
    subst hpq
    rw [State.removeRequest_port, if_pos rfl] at hload
    simp only [PortState.load, ht.inbound, List.tail_cons, List.length_cons, List.length_append, List.length_nil]
      at hload hq ⊢
    omega
  · rename_i hpq
    rw [State.removeRequest_port, if_neg hpq] at hload
    rw [hload]
    exact hq

/-- Settles O54: the shared operations leave requests and replies alone, a taking makes the room that its reply takes, and
a request is admitted only while there is room. -/
theorem stepKeepsLoadsBounded : Obligations.StepKeepsLoadsBounded := by
  intro s t h ht
  rcases step_cases ht with rfl | ⟨c, rest, -, hexec⟩
  · exact h
  · have h : State.LoadsBounded { s with pending := rest } := h
    rcases exec_carried hexec with rfl | ⟨-, s0, hopens, hacts⟩ | ⟨-, p, r, rest, a, htakes⟩
    · exact h
    · exact fun q => (hacts.port_frame q).load.trans_le (h.opens hopens q)
    · exact h.takes htakes

/-! ### The event queue of a port (R151, R152) -/

theorem eventQueueSound_nil : EventQueueSound [] := ⟨[], by simp, by simp, .inl rfl⟩

/-- An event queue with an event that is no OVERRUN entry counted in is sound (R151). -/
theorem EventQueueSound.enqueue {queue : List Event} (h : EventQueueSound queue) {e : Event}
    (he : e.isOverrun = false) : EventQueueSound (enqueueEvent queue e) := by
  obtain ⟨ordinary, hlength, hord, rfl | ⟨count, h1, h255, rfl⟩⟩ := h
  · by_cases hroom : queue.length < 15
    · rw [enqueueEvent_of_room e hord hroom]
      refine ⟨queue ++ [e], by simp; omega, fun y hy => ?_, .inl rfl⟩
      rcases List.mem_append.mp hy with hy | hy
      · exact hord y hy
      · rw [List.mem_singleton.mp hy]; exact he
    · rw [enqueueEvent_of_full e hord (Nat.not_lt.mp hroom)]
      exact ⟨queue, hlength, hord, .inr ⟨1, by omega, by omega, rfl⟩⟩
  · rw [enqueueEvent_of_overrun count e hord]
    exact ⟨ordinary, hlength, hord, .inr ⟨_, by split <;> omega, by split <;> omega, rfl⟩⟩

/-- An event queue without its head is sound. -/
theorem EventQueueSound.tail {queue : List Event} (h : EventQueueSound queue) : EventQueueSound queue.tail := by
  obtain ⟨ordinary, hlength, hord, hqueue⟩ := h
  cases ordinary with
  | nil =>
    rcases hqueue with rfl | ⟨count, -, -, rfl⟩ <;> exact eventQueueSound_nil
  | cons e rest =>
    refine ⟨rest, by simp at hlength; omega, fun y hy => hord y (List.mem_cons_of_mem e hy), ?_⟩
    rcases hqueue with rfl | ⟨count, h1, h255, rfl⟩
    · exact .inl rfl
    · exact .inr ⟨count, h1, h255, rfl⟩

/-- An OVERRUN entry that heads a sound queue is its only entry. -/
theorem EventQueueSound.overrun_head {count : Nat} {rest : List Event} (h : EventQueueSound (.overrun count :: rest)) :
    1 ≤ count ∧ count ≤ 255 ∧ rest = [] := by
  obtain ⟨ordinary, -, hord, hqueue⟩ := h
  cases ordinary with
  | nil =>
    rcases hqueue with hqueue | ⟨n, h1, h255, hqueue⟩
    · cases hqueue
    · cases hqueue; exact ⟨h1, h255, rfl⟩
  | cons e others =>
    have hhead : e = .overrun count := by
      rcases hqueue with hqueue | ⟨n, -, -, hqueue⟩ <;> exact (List.cons.inj hqueue).1.symm
    have := hord e (List.mem_cons_self ..)
    rw [hhead] at this
    cases this

theorem eventQueueSound_overrun {count : Nat} (h1 : 1 ≤ count) (h255 : count ≤ 255) :
    EventQueueSound [.overrun count] := ⟨[], by simp, by simp, .inr ⟨count, h1, h255, rfl⟩⟩

/-- The event queue of a port and the OVERRUN entry it may be sending are as R151 and R152 have them. -/
def PortState.QueueSound (x : PortState) : Prop := EventQueueSound x.events ∧ x.OverrunSent

theorem PortState.QueueSound.offer {x : PortState} (h : x.QueueSound) (p : Port) {e : Event}
    (he : e.isOverrun = false) : (x.offer p e).QueueSound := by
  obtain ⟨hqueue, hsent⟩ := h
  rw [PortState.offer_eq]
  split
  · refine ⟨hqueue.enqueue he, fun t ht sent hsource => ?_⟩
    obtain ⟨count, hle, hevents⟩ := hsent t ht sent hsource
    refine ⟨if count < 255 then count + 1 else count, by split <;> omega, ?_⟩
    show enqueueEvent x.events e = _
    rw [hevents]
    exact enqueueEvent_of_overrun (ordinary := []) count e nofun
  · exact ⟨hqueue, hsent⟩

/-- Emptying the event queue leaves no OVERRUN entry being sent (R120, R153). -/
theorem PortState.queueSound_of_emptied {x : PortState} {y : PortState} (he : y.events = [])
    (ht : y.transaction = (x.emptyEvents).transaction ∨ y.transaction = (x.emptyQueues).transaction) :
    y.QueueSound := by
  refine ⟨he ▸ eventQueueSound_nil, fun t hmem sent hsource => ?_⟩
  rcases ht with ht | ht <;> rw [ht] at hmem <;> obtain ⟨t', -, rfl⟩ := Option.map_eq_some_iff.mp hmem <;>
    cases hs : t'.source <;> simp [hs, FrameFrom.afterEventsEmptied] at hsource

theorem PortState.QueueSound.changes {c : Params} {p : Port} {x y : PortState} (hc : x.Changes c p y)
    (h : x.QueueSound) : y.QueueSound := by
  cases hc with
  | same => exact h
  | offer e he => exact h.offer p he
  | subscribe mask attention => exact h
  | close => exact PortState.queueSound_of_emptied (x := x) rfl (.inl rfl)
  | reopen => exact PortState.queueSound_of_emptied (x := x) rfl (.inl rfl)

/-- A transaction begins to send an OVERRUN entry only where that heads the queue, and so is its only entry (R119). -/
theorem PortState.QueueSound.beginTransaction {x : PortState} (h : x.QueueSound) : x.beginTransaction.QueueSound := by
  obtain ⟨hqueue, -⟩ := h
  refine ⟨hqueue, fun t ht sent hsource => ?_⟩
  obtain rfl := Option.some.inj ht
  change x.outbound.2 = _ at hsource
  unfold PortState.outbound at hsource
  split at hsource
  · cases hsource
  · rename_i count rest _ hevents
    obtain rfl := FrameFrom.overrun.inj hsource
    obtain ⟨-, -, rfl⟩ := (hevents ▸ hqueue : EventQueueSound (.overrun count :: rest)).overrun_head
    exact ⟨count, Nat.le_refl _, hevents⟩
  · cases hsource
  · cases hsource

theorem PortState.QueueSound.removeOutbound {x : PortState} {t : Transaction} (hqueue : EventQueueSound x.events)
    (hsent : ∀ sent, t.source = .overrun sent → ∃ count, sent ≤ count ∧ x.events = [.overrun count]) :
    EventQueueSound (x.removeOutbound t).events := by
  unfold PortState.removeOutbound
  split
  · split
    · exact hqueue
    · exact hqueue.tail
    · rename_i sent hsource
      obtain ⟨count, hle, hevents⟩ := hsent sent hsource
      rw [hevents] at hqueue ⊢
      obtain ⟨h1, h255, -⟩ := hqueue.overrun_head
      show EventQueueSound (if count = sent then [] else [.overrun (count - sent)])
      split
      · exact eventQueueSound_nil
      · exact eventQueueSound_overrun (by omega) (by omega)
    · exact hqueue
    · exact hqueue
  · exact hqueue

/-- Judging the received frame leaves the event queue and the transaction alone. -/
theorem PortState.judgeFrame_events (x : PortState) (c : Params) (received : List Byte) :
    (x.judgeFrame c received).events = x.events ∧ (x.judgeFrame c received).transaction = x.transaction := by
  have hrestart (y : PortState) :
      (y.restartKeepalive c).events = y.events ∧ (y.restartKeepalive c).transaction = y.transaction := by
    unfold PortState.restartKeepalive; split <;> exact ⟨rfl, rfl⟩
  unfold PortState.judgeFrame
  split
  · exact ⟨rfl, rfl⟩
  · exact hrestart _
  · rename_i r _
    have hoffer : (x.offerRequest r).events = x.events ∧ (x.offerRequest r).transaction = x.transaction := by
      unfold PortState.offerRequest; split <;> exact ⟨rfl, rfl⟩
    exact ⟨(hrestart _).1.trans hoffer.1, (hrestart _).2.trans hoffer.2⟩

theorem PortState.removeOutbound_transaction (x : PortState) (t : Transaction) :
    (x.removeOutbound t).transaction = x.transaction := by
  unfold PortState.removeOutbound; split
  · split <;> rfl
  · rfl

theorem PortState.QueueSound.endTransaction {x : PortState} (h : x.QueueSound) (c : Params) :
    (x.endTransaction c).QueueSound := by
  obtain ⟨hqueue, hsent⟩ := h
  unfold PortState.endTransaction
  split
  · exact ⟨hqueue, hsent⟩
  · rename_i t ht
    dsimp only
    split
    · exact ⟨hqueue, nofun⟩
    · obtain ⟨hevents, htransaction⟩ := PortState.judgeFrame_events
        (PortState.removeOutbound { x with selectLow := false, transaction := none } t) c t.received
      refine ⟨?_, ?_⟩
      · rw [hevents]
        exact PortState.QueueSound.removeOutbound hqueue (hsent t ht)
      · rw [PortState.OverrunSent, htransaction, PortState.removeOutbound_transaction]
        nofun

theorem State.QueuesSound.opens {c : Instr} {s t : State} (ht : Opens c s t) (h : s.QueuesSound) : t.QueuesSound := by
  cases ht with
  | powerOn =>
    intro p
    rw [← State.poweredOn, s.port_poweredOn]
    exact ⟨eventQueueSound_nil, nofun⟩
  | pinReset =>
    intro p
    rw [← State.pinned, s.port_pinned]
    exact ⟨eventQueueSound_nil, nofun⟩
  | tick => exact fun p => by rw [State.port_advance]; exact h p
  | fallInReset _ p => exact forall_port_setPort (P := PortState.QueueSound) h p (h p)
  | fall _ p => exact forall_port_setPort (P := PortState.QueueSound) h p (PortState.QueueSound.beginTransaction (h p))
  | clock _ p sdi x hx =>
    refine forall_port_setPort (P := PortState.QueueSound) h p ⟨(h p).1, fun t ht sent hsource => ?_⟩
    obtain rfl := Option.some.inj ht
    refine (h p).2 x hx sent ?_
    rw [← hsource, Transaction.clockBit]
    split <;> rfl
  | rise _ p => exact forall_port_setPort (P := PortState.QueueSound) h p (PortState.QueueSound.endTransaction (h p) _)
  | lose _ p =>
    exact forall_port_setPort (P := PortState.QueueSound) h p
      (PortState.queueSound_of_emptied (x := s.port p) rfl (.inr rfl))
  | _ => exact h

theorem State.QueuesSound.atom {w : Option SlotNo} {s t : State} (ht : Atom w s t) (h : s.QueuesSound) :
    t.QueuesSound := fun p => PortState.QueueSound.changes (ht.port_changes p) (h p)

theorem State.QueuesSound.serves {c : Instr} {p : Port} {s t : State} (ht : Serves c p s t) (h : s.QueuesSound) :
    t.QueuesSound :=
  ht.keeps State.QueuesSound.atom (fun _ _ h => h) (fun line h q => by rw [State.port_setLine]; exact h q) h
    (fun he _ _ _ _ _ => he ▸ h) (fun he _ _ _ _ _ _ => he ▸ h)

theorem kept_queuesSound : Kept State.QueuesSound where
  pending _ h := h
  atom := State.QueuesSound.atom
  opens := State.QueuesSound.opens
  remove p h := forall_port_setPort (P := PortState.QueueSound) h p (h p)
  serves := State.QueuesSound.serves
  reply p _ h := forall_port_setPort (P := PortState.QueueSound) h p (h p)

/-- Settles O55. -/
theorem stepKeepsEventQueues : Obligations.StepKeepsEventQueues := fun _ _ h ht => kept_queuesSound.step ht h

end Sys2Proof.Machine
end


-- ==== Sys2Proof/Proofs/Drive.lean ====
section
/-! PROOF. Every step keeps the Sounder Driver at what the Play Context and the Line Monitor call for (R104): their two
updates take the drive with them, and nothing else touches one of the three. -/

namespace Sys2Proof.Machine

section
variable (s : State)

/-! ### The two updates that the drive follows -/

theorem State.driveFollows_setPlay (play : Play) : (s.setPlay play).DriveFollows := by
  simp [State.DriveFollows]

theorem State.driveFollows_setLine (line : Line) : (s.setLine line).DriveFollows := by
  simp [State.DriveFollows]

/-- A tick counts the step timer down and leaves the tone and the level, so what is called for (R54, R104). -/
theorem wantedDrive_countDown (play : Play) (line : Line) : wantedDrive play.countDown line = wantedDrive play line := by
  cases play <;> rfl

theorem State.advance_play : s.advance.play = s.play.countDown := by simp only [State.advance]

/-- A state with the play, the line and the drive of one whose drive follows. -/
theorem State.DriveFollows.congr {s t : State} (h : s.DriveFollows) (hp : t.play = s.play) (hl : t.line = s.line)
    (hd : t.drive = s.drive) : t.DriveFollows := by
  rw [State.DriveFollows, hp, hl, hd]; exact h

end

/-! ### The invariant -/

section
variable {s t : State}

theorem State.DriveFollows.atom {w : Option SlotNo} (ht : Atom w s t) (h : s.DriveFollows) : t.DriveFollows := by
  cases ht with
  | setPlay _ play => exact s.driveFollows_setPlay play
  | setLine _ _ line => exact s.driveFollows_setLine line
  | refit _ change => rw [State.mapRecords_eq]; exact h.congr rfl rfl rfl
  | toFallback _ i => rw [State.switchToFallback_eq]; exact h
  | discard _ _ n l => rw [State.freeExtent_eq]; exact h
  | write _ i x => rw [State.setWord_eq]; exact h
  | _ => exact h

theorem State.DriveFollows.opens {c : Instr} (ht : Opens c s t) (h : s.DriveFollows) : t.DriveFollows := by
  cases ht with
  | pinReset =>
    have hreset : s.blocksReset.DriveFollows := rfl
    rw [← State.pinned]
    exact hreset.congr s.pinned_same.play s.pinned_same.line s.pinned_same.drive
  | powerOn => rfl
  | tick =>
    rw [State.DriveFollows, State.advance_drive, State.advance_line, State.advance_play, wantedDrive_countDown]
    exact h
  | _ => exact h

theorem kept_driveFollows : Kept State.DriveFollows where
  pending _ h := h
  atom := State.DriveFollows.atom
  opens := State.DriveFollows.opens
  remove _ h := h
  serves ht h := ht.keeps State.DriveFollows.atom (fun _ _ h => h) (fun line _ => State.driveFollows_setLine _ line) h
    (fun he _ _ _ _ _ => he ▸ h) (fun he _ _ _ _ _ _ => he ▸ h)
  reply _ _ h := h

end

/-! ### What the drive and the bridge give (R104, R105) -/

theorem wantedDrive_eq_some {play : Play} {line : Line} {now : Sounding} (h : play.now = some now) (ht : now.tone ≠ 0)
    (hl : line.isShort = false) :
    wantedDrive play line = some { frequency := 200 + 100 * now.tone.toNat, duty := 25 * (now.level.toNat + 1) } := by
  simp only [wantedDrive, h, ht, hl, toneFrequency, levelDuty, Bool.false_eq_true, or_self, if_false]

theorem wantedDrive_eq_none {play : Play} {line : Line}
    (h : (∀ now, play.now = some now → now.tone = 0) ∨ line.isShort = true) : wantedDrive play line = none := by
  unfold wantedDrive
  split
  · rfl
  · rename_i now hnow
    rw [if_pos]
    rcases h with h | h
    · exact .inl (h now hnow)
    · exact .inr h

/-- Each half of a period conducts for the duty fraction from its beginning, SND_A in the first and SND_B in the second
(R105). -/
theorem Drive.outputs_high (d : Drive) (us : Nat) :
    let place := us * d.frequency % 1000000
    ((d.outputs us).1 = .high ↔ place < 500000 ∧ place * 100 < d.duty * 500000) ∧
      ((d.outputs us).2 = .high ↔ 500000 ≤ place ∧ (place - 500000) * 100 < d.duty * 500000) := by
  dsimp only [Drive.outputs]
  generalize us * d.frequency % 1000000 = place
  by_cases hhalf : place < 500000
  · by_cases hduty : place * 100 < d.duty * 500000 <;> simp [hhalf, hduty]
  · by_cases hduty : (place - 500000) * 100 < d.duty * 500000 <;> simp [hhalf, hduty, Nat.not_lt.mp hhalf]

theorem State.setPlay_elsewhere (s : State) (play : Play) :
    { s.setPlay play with drive := s.drive, driveMs := s.driveMs } = { s with play := play } := by
  rw [State.setPlay_eq]

theorem State.setLine_elsewhere (s : State) (line : Line) :
    { s.setLine line with drive := s.drive, driveMs := s.driveMs } = { s with line := line } := by
  rw [State.setLine_eq]

theorem execTick_ticking {s : State} (hc : s.clkin = true) (hr : s.inReset = false) : exec .tick s = .next s.advance := by
  show Host.Outcome.next (if s.ticking then s.advance else s) = _
  rw [if_pos (by simp [State.ticking, hc, hr])]

/-- The bridge's time advances by one at a tick while it is driven (R105; log 15). -/
theorem driveMs_of_tick {s t : State} (hc : s.clkin = true) (hr : s.inReset = false) (ht : exec .tick s = .next t) :
    t.driveMs = if s.drive = none then 0 else (s.driveMs + 1) % 10 := by
  obtain rfl := Host.Outcome.next.inj ((execTick_ticking hc hr).symm.trans ht)
  simp only [State.advance]
  cases s.drive <;> rfl

/-- Settles O53: the drive follows its two inputs at each of their updates, and the bridge follows the drive. -/
theorem stepKeepsDrive : Obligations.StepKeepsDrive := by
  refine ⟨fun s t h ht => kept_driveFollows.step ht h, fun s h => ⟨fun now hnow htone hline => ?_, fun hsilent => ?_⟩,
    fun s play => ⟨s.setPlay_elsewhere play, s.driveFollows_setPlay play, ?_⟩,
    fun s line => ⟨s.setLine_elsewhere line, s.driveFollows_setLine line, ?_⟩,
    fun s t hc hr ht => driveMs_of_tick hc hr ht, fun s us => ⟨fun h => ?_, fun d h => ?_⟩⟩
  · exact Eq.trans h (wantedDrive_eq_some hnow htone hline)
  · exact Eq.trans h (wantedDrive_eq_none hsilent)
  · simp
  · simp
  · simp [State.bridge, h]
  · have hbridge : s.bridge us = d.outputs (s.driveMs * 1000 + us) := by simp [State.bridge, h]
    rw [hbridge]
    exact d.outputs_high _

end Sys2Proof.Machine
end


-- ==== Sys2Proof/Proofs/Timers.lean ====
section
/-! PROOF. Every step keeps the parameters, the debounce counts, the flash phase and the timers in range, and a keepalive
timer and a transaction only where they may be (R92, R99, R117, R118, R131, R157, Table 10.2). -/

namespace Sys2Proof.Machine

/-! ### The timers started from parameters -/

theorem Params.keepaliveStart_le {c : Params} (h : c.InRange) : c.keepaliveStart.getD 0 ≤ 25500 := by
  obtain ⟨hkeepalive, -⟩ := h
  unfold Params.keepaliveStart
  split
  · exact Nat.zero_le _
  · show c.keepalive * 100 ≤ 25500; omega

theorem Params.muteStart_le {c : Params} (h : c.InRange) : c.muteStart.getD 0 ≤ 3600000 := by
  obtain ⟨-, hmute, -⟩ := h
  unfold Params.muteStart
  split
  · exact Nat.zero_le _
  · show c.mutePeriod * 1000 ≤ 3600000; omega

theorem countDown_getD_le (timer : Option Nat) : (countDown timer).getD 0 ≤ timer.getD 0 := by
  cases timer with
  | none => exact Nat.le_refl _
  | some left => exact Nat.sub_le left 1

theorem countDown_isSome (timer : Option Nat) : (countDown timer).isSome = timer.isSome := by cases timer <;> rfl

/-! ### One port -/

/-- A port's keepalive timer and its transaction are in range and only where they may be (R117, R118, R131). -/
structure PortState.TimersSound (x : PortState) : Prop where
  range : x.keepalive.getD 0 ≤ 25500
  opened : x.keepalive.isSome = true → x.session = .opened
  transaction : x.TransactionSound

section
variable {x y : PortState}

theorem PortState.timersSound_of_stopped (h : y.keepalive = none) (ht : y.TransactionSound) : y.TimersSound where
  range := by rw [h]; exact Nat.zero_le _
  opened := by rw [h]; exact nofun
  transaction := ht

theorem PortState.TransactionSound.emptyEvents (h : x.TransactionSound) : x.emptyEvents.TransactionSound := by
  intro t ht
  obtain ⟨t', ht', rfl⟩ := Option.map_eq_some_iff.mp ht
  exact h t' ht'

theorem PortState.TransactionSound.emptyQueues (h : x.TransactionSound) : x.emptyQueues.TransactionSound := by
  intro t ht
  obtain ⟨t', ht', rfl⟩ := Option.map_eq_some_iff.mp ht
  exact h t' ht'

theorem PortState.TimersSound.changes {c : Params} {p : Port} (hc : c.InRange) (hy : x.Changes c p y)
    (h : x.TimersSound) : y.TimersSound := by
  obtain ⟨hrange, hopened, htransaction⟩ := h
  cases hy with
  | same => exact ⟨hrange, hopened, htransaction⟩
  | offer e => rw [PortState.offer_eq]; exact ⟨hrange, hopened, htransaction⟩
  | subscribe => exact ⟨hrange, hopened, htransaction⟩
  | close => exact PortState.timersSound_of_stopped rfl htransaction.emptyEvents
  | reopen => exact ⟨Params.keepaliveStart_le hc, fun _ => rfl, htransaction.emptyEvents⟩

theorem PortState.TimersSound.removeOutbound (h : x.TimersSound) (t : Transaction) :
    (x.removeOutbound t).TimersSound := by
  obtain ⟨hrange, hopened, htransaction⟩ := h
  unfold PortState.removeOutbound
  split
  · split <;> exact ⟨hrange, hopened, htransaction⟩
  · exact ⟨hrange, hopened, htransaction⟩

theorem PortState.TimersSound.restartKeepalive {c : Params} (hc : c.InRange) (h : x.TimersSound) :
    (x.restartKeepalive c).TimersSound := by
  unfold PortState.restartKeepalive
  split
  · rename_i hopened
    exact ⟨Params.keepaliveStart_le hc, fun _ => hopened, h.transaction⟩
  · exact h

theorem PortState.TimersSound.offerRequest (h : x.TimersSound) (r : Request) : (x.offerRequest r).TimersSound := by
  obtain ⟨hrange, hopened, htransaction⟩ := h
  unfold PortState.offerRequest
  split <;> exact ⟨hrange, hopened, htransaction⟩

theorem PortState.TimersSound.judgeFrame {c : Params} (hc : c.InRange) (h : x.TimersSound) (received : List Byte) :
    (x.judgeFrame c received).TimersSound := by
  unfold PortState.judgeFrame
  split
  · exact ⟨h.range, h.opened, h.transaction⟩
  · exact PortState.TimersSound.restartKeepalive hc ⟨h.range, h.opened, h.transaction⟩
  · exact (h.offerRequest _).restartKeepalive hc

theorem PortState.TimersSound.endTransaction {c : Params} (hc : c.InRange) (h : x.TimersSound) :
    (x.endTransaction c).TimersSound := by
  unfold PortState.endTransaction
  split
  · rename_i hnone
    exact ⟨h.range, h.opened, fun t ht => by rw [show x.transaction = some t from ht] at hnone; cases hnone⟩
  · rename_i t _
    have hended : PortState.TimersSound { x with selectLow := false, transaction := none } :=
      ⟨h.range, h.opened, nofun⟩
    dsimp only
    split
    · exact hended
    · exact (hended.removeOutbound t).judgeFrame hc _

theorem PortState.TimersSound.countDown (h : x.TimersSound) : x.countDown.TimersSound where
  range := (countDown_getD_le _).trans h.range
  opened := fun hrun => h.opened (by rwa [← countDown_isSome])
  transaction := h.transaction

theorem PortState.TimersSound.beginTransaction (h : x.TimersSound) : x.beginTransaction.TimersSound where
  range := h.range
  opened := h.opened
  transaction := fun t ht => by obtain rfl := Option.some.inj ht; exact ⟨rfl, Nat.zero_lt_succ 7⟩

theorem Transaction.clockBit_bits_lt (t : Transaction) (bit : Bool) : (t.clockBit bit).bits.length < 8 := by
  unfold Transaction.clockBit
  split
  · simp; omega
  · exact Nat.zero_lt_succ 7

end

/-! ### The whole part -/

/-- The parameters, the panel and the clocks are in range (Table 10.2). -/
structure State.ClocksSound (s : State) : Prop where
  params : s.params.InRange
  ack : s.panel.ack.CountSound
  silence : s.panel.silence.CountSound
  test : s.panel.test.CountSound
  flash : s.flashPhase ≤ 999
  mute : s.mute.getD 0 ≤ 3600000
  line : s.lineTimer.getD 0 ≤ 100
  enable : s.inReset = false → (s.lineTimer.isSome = true ↔ s.params.lineEnable = true)

/-- The clocks and every port are in range. -/
def State.AllTimersSound (s : State) : Prop := s.ClocksSound ∧ ∀ p, (s.port p).TimersSound

theorem State.allTimersSound_iff (s : State) : s.AllTimersSound ↔ s.TimersSound ∧ s.PortsSound := by
  constructor
  · rintro ⟨⟨hp, ha, hs, ht, hf, hm, hl, he⟩, hports⟩
    exact ⟨⟨hp, ha, hs, ht, hf, hm, hl, he, fun p => (hports p).range⟩,
      fun p => ⟨(hports p).transaction, (hports p).opened⟩⟩
  · rintro ⟨⟨hp, ha, hs, ht, hf, hm, hl, he, hk⟩, hports⟩
    exact ⟨⟨hp, ha, hs, ht, hf, hm, hl, he⟩, fun p => ⟨hk p, (hports p).2, (hports p).1⟩⟩

section
variable {s t : State}

theorem State.ClocksSound.frame (h : s.ClocksSound) (hf : s.Frame t) (hm : t.mute.getD 0 ≤ 3600000) :
    t.ClocksSound where
  params := hf.params ▸ h.params
  ack := hf.panel ▸ h.ack
  silence := hf.panel ▸ h.silence
  test := hf.panel ▸ h.test
  flash := hf.flashPhase ▸ h.flash
  mute := hm
  line := hf.lineTimer ▸ h.line
  enable := by rw [hf.inReset, hf.lineTimer, hf.params]; exact h.enable

/-- Only one atom sets the mute timer (R45). -/
theorem Atom.mute_eq {w : Option SlotNo} (ht : Atom w s t) :
    t.mute = s.mute ∨ t.mute = none ∨ t.mute = s.params.muteStart := by
  cases ht with
  | setMute _ mute hm => exact .inr hm
  | setPlay _ play => exact .inl (by rw [State.setPlay_eq])
  | setLine _ _ line => exact .inl (by rw [State.setLine_eq])
  | refit _ change => exact .inl (by rw [State.mapRecords_eq])
  | toFallback _ i => exact .inl (by rw [State.switchToFallback_eq])
  | discard _ _ n l => exact .inl (by rw [State.freeExtent_eq]; rfl)
  | write _ i x => exact .inl (by rw [State.setWord_eq])
  | _ => exact .inl rfl

theorem State.AllTimersSound.atom {w : Option SlotNo} (ht : Atom w s t) (h : s.AllTimersSound) :
    t.AllTimersSound := by
  obtain ⟨hclocks, hports⟩ := h
  refine ⟨hclocks.frame ht.frame ?_, fun p => (hports p).changes hclocks.params (ht.port_changes p)⟩
  rcases ht.mute_eq with he | he | he <;> rw [he]
  · exact hclocks.mute
  · exact Nat.zero_le _
  · exact Params.muteStart_le hclocks.params

theorem PortState.timersSound_afterReset (x : PortState) : x.afterReset.TimersSound :=
  PortState.timersSound_of_stopped rfl nofun

theorem State.clocksSound_blocksReset (s : State) : s.blocksReset.ClocksSound where
  params := Params.default_inRange _
  ack := rfl
  silence := rfl
  test := rfl
  flash := Nat.zero_le _
  mute := Nat.zero_le _
  line := Nat.zero_le _
  enable := nofun

theorem State.AllTimersSound.setPort (h : s.AllTimersSound) (p : Port) {x : PortState} (hx : x.TimersSound) :
    (s.setPort p x).AllTimersSound :=
  ⟨h.1.frame ⟨rfl, rfl, rfl, rfl, rfl, rfl, rfl, rfl, rfl, rfl⟩ h.1.mute,
    forall_port_setPort (P := PortState.TimersSound) h.2 p hx⟩

theorem State.ClocksSound.advance (h : s.ClocksSound) : s.advance.ClocksSound where
  params := by rw [State.advance_params]; exact h.params
  ack := by rw [State.advance_panel]; exact h.ack
  silence := by rw [State.advance_panel]; exact h.silence
  test := by rw [State.advance_panel]; exact h.test
  flash := by rw [State.advance_flashPhase]; exact h.flash
  mute := by simp only [State.advance]; exact (countDown_getD_le _).trans h.mute
  line := by simp only [State.advance]; exact (countDown_getD_le _).trans h.line
  enable := by simp only [State.advance, countDown_isSome]; exact h.enable

theorem State.AllTimersSound.opens {c : Instr} (ht : Opens c s t) (h : s.AllTimersSound) : t.AllTimersSound := by
  obtain ⟨hclocks, hports⟩ := h
  cases ht with
  | powerOn =>
    refine ⟨s.clocksSound_blocksReset.frame ⟨rfl, rfl, rfl, rfl, rfl, rfl, rfl, rfl, rfl, rfl⟩ (Nat.zero_le _),
      fun p => ?_⟩
    rw [← State.poweredOn, s.port_poweredOn]
    exact PortState.timersSound_afterReset _
  | pinReset =>
    have ⟨_, _, hmute, _, _, hpanel, hlamp, hflash, hrole, _, _, _, htimer, _, hpointer, hparams, hclkin, hreset,
      hpending⟩ := s.pinned_same
    rw [← State.pinned]
    refine ⟨s.clocksSound_blocksReset.frame
      ⟨hparams, hpanel, hlamp, hflash, hrole, hpointer, htimer, hclkin, hreset, hpending⟩ ?_, fun p => ?_⟩
    · rw [hmute]; exact Nat.zero_le _
    · rw [s.port_pinned]; exact PortState.timersSound_afterReset _
  | leaveReset =>
    refine ⟨{ hclocks with params := Params.default_inRange _, line := Nat.le_refl 100, enable := fun _ => ?_ }, hports⟩
    exact ⟨fun _ => rfl, fun _ => rfl⟩
  | tick => exact ⟨hclocks.advance, fun p => by rw [State.port_advance]; exact (hports p).countDown⟩
  | stay => exact ⟨hclocks, hports⟩
  | stopClock => exact ⟨{ hclocks with }, hports⟩
  | resumeClock => exact ⟨{ hclocks with }, hports⟩
  | fallInReset _ p =>
    refine State.AllTimersSound.setPort ⟨hclocks, hports⟩ p ⟨(hports p).range, (hports p).opened, fun t ht => ?_⟩
    exact ⟨rfl, ((hports p).transaction t ht).2⟩
  | fall _ p => exact State.AllTimersSound.setPort ⟨hclocks, hports⟩ p (hports p).beginTransaction
  | clock _ p sdi x hx =>
    refine State.AllTimersSound.setPort ⟨hclocks, hports⟩ p ⟨(hports p).range, (hports p).opened, fun t ht => ?_⟩
    obtain rfl := Option.some.inj ht
    exact ⟨((hports p).transaction x hx).1, x.clockBit_bits_lt _⟩
  | rise _ p => exact State.AllTimersSound.setPort ⟨hclocks, hports⟩ p ((hports p).endTransaction hclocks.params)
  | panel _ _ panel lampTest ha hs hp =>
    exact ⟨{ hclocks with ack := ha hclocks.ack, silence := hs hclocks.silence, test := hp hclocks.test }, hports⟩
  | flash =>
    refine ⟨{ hclocks with flash := ?_ }, hports⟩
    dsimp only
    split <;> omega
  | lose _ p =>
    exact State.AllTimersSound.setPort ⟨hclocks, hports⟩ p
      (PortState.timersSound_of_stopped rfl (hports p).transaction.emptyQueues)
  | sample _ sense loop htimer =>
    refine ⟨{ hclocks with line := Nat.le_refl 100, enable := fun hr => ?_ }, hports⟩
    rw [← hclocks.enable hr, htimer]
    exact ⟨fun _ => rfl, fun _ => rfl⟩

/-- The parameters and the sample timer changed together, the timer running with the enable (R112). -/
theorem State.AllTimersSound.configured (h : s.AllTimersSound) {params : Params} {timer : Option Nat} (line : Line)
    (hp : params.InRange) (ht : timer.getD 0 ≤ 100) (he : timer.isSome = true ↔ params.lineEnable = true) :
    (State.setLine { s with params := params, lineTimer := timer } line).AllTimersSound := by
  obtain ⟨hclocks, hports⟩ := h
  rw [State.setLine_eq]
  exact ⟨{ hclocks with params := hp, line := ht, enable := fun _ => he }, hports⟩

theorem State.AllTimersSound.serves {c : Instr} {p : Port} (ht : Serves c p s t) (h : s.AllTimersSound) :
    t.AllTimersSound := by
  obtain ⟨hclocks, hports⟩ := h
  cases ht with
  | stay => exact ⟨hclocks, hports⟩
  | create => exact ⟨{ hclocks with }, hports⟩
  | realert => exact ⟨{ hclocks with }, hports⟩
  | configure _ _ id v params hw _ he =>
    refine ⟨{ hclocks with params := Params.write_inRange hclocks.params hw, enable := fun hr => ?_ }, hports⟩
    exact he ▸ hclocks.enable hr
  | turnOn _ _ id v params hw _ _ ha =>
    exact State.AllTimersSound.configured ⟨hclocks, hports⟩ _ (Params.write_inRange hclocks.params hw) (Nat.le_refl 100)
      ⟨fun _ => ha, fun _ => rfl⟩
  | turnOff _ _ id v params hw _ _ ha =>
    exact State.AllTimersSound.configured ⟨hclocks, hports⟩ _ (Params.write_inRange hclocks.params hw) (Nat.zero_le _)
      (by simp [ha])
  | turnOffInFault _ _ id v params hw _ _ ha =>
    refine (Quiets.acts (quiets_internalReturn _ _)).keeps State.AllTimersSound.atom ?_
    exact State.AllTimersSound.configured ⟨hclocks, hports⟩ _ (Params.write_inRange hclocks.params hw) (Nat.zero_le _)
      (by simp [ha])

theorem kept_allTimersSound : Kept State.AllTimersSound where
  pending _ h := ⟨{ h.1 with }, h.2⟩
  atom := State.AllTimersSound.atom
  opens := State.AllTimersSound.opens
  remove p h := ⟨{ h.1 with }, forall_port_setPort (P := PortState.TimersSound) h.2 p
    ⟨(h.2 p).range, (h.2 p).opened, (h.2 p).transaction⟩⟩
  serves := State.AllTimersSound.serves
  reply p _ h := State.AllTimersSound.setPort h p ⟨(h.2 p).range, (h.2 p).opened, (h.2 p).transaction⟩

end

/-- Settles O59: each timer is started within its range, and counts down from there. -/
theorem stepKeepsTimersInRange : Obligations.StepKeepsTimersInRange := by
  intro s t htimers hports ht
  exact t.allTimersSound_iff.mp (kept_allTimersSound.step ht (s.allTimersSound_iff.mpr ⟨htimers, hports⟩))

end Sys2Proof.Machine
end


-- ==== Sys2Proof/Proofs/Causes.lean ====
section
/-! PROOF. Every step keeps internal records tied to their causes, slots by origin, tags distinct, and the Line Monitor
sound (R1, R5, R23, R109 to R112). A change that removes a cause comes with the return of the record whose cause it was;
in between, that one slot is excepted. -/

namespace Sys2Proof.Machine

/-! ### Origins and tags -/

/-- From s to t every record is an internal one in an internal slot, or has the origin and, unless internal, the tag that
its slot's record had. -/
def State.Derives (s t : State) : Prop :=
  ∀ j r', t.record j = some r' →
    (r'.origin = .internal ∧ Config.hostSlots ≤ j.val) ∨
      ∃ r, s.record j = some r ∧ r'.origin = r.origin ∧ (r'.origin ≠ .internal → r'.tag = r.tag)

/-- Slots hold records by origin, and no two host records share origin and tag (R1, R5). -/
def State.IdentitiesSound (s : State) : Prop := s.SlotsByOrigin ∧ s.TagsDistinct

section
variable {s t : State}

theorem State.derives_of_records (h : ∀ j, t.record j = s.record j) : s.Derives t :=
  fun j r' hr => .inr ⟨r', h j ▸ hr, rfl, fun _ => rfl⟩

theorem State.IdentitiesSound.derives (h : s.IdentitiesSound) (hd : s.Derives t) : t.IdentitiesSound := by
  obtain ⟨hslots, htags⟩ := h
  refine ⟨fun i r hr => ?_, fun i j r hr q hq hhost horigin htag => ?_⟩
  · rcases hd i r hr with ⟨ho, hi⟩ | ⟨r0, hr0, ho, -⟩
    · simp [ho, hi]
    · rw [ho]; exact hslots i r0 hr0
  · rcases hd i r hr with ⟨ho, -⟩ | ⟨r0, hr0, ho, ht⟩
    · exact absurd ho hhost
    · rcases hd j q hq with ⟨ho', -⟩ | ⟨q0, hq0, ho', ht'⟩
      · exact absurd (horigin.trans ho') hhost
      · refine htags i j r0 hr0 q0 hq0 (ho ▸ hhost) (ho ▸ ho' ▸ horigin) ?_
        rw [← ht hhost, ← ht' (horigin ▸ hhost), htag]

/-- One slot's record changed, keeping its origin and, unless internal, its tag. -/
theorem State.derives_of_slot {i : SlotNo} (hother : ∀ j, i ≠ j → t.record j = s.record j)
    (hself : ∀ r', t.record i = some r' → (r'.origin = .internal ∧ Config.hostSlots ≤ i.val) ∨
      ∃ r, s.record i = some r ∧ r'.origin = r.origin ∧ (r'.origin ≠ .internal → r'.tag = r.tag)) : s.Derives t :=
  fun j r' hr => by
    by_cases hij : i = j
    · subst hij; exact hself r' hr
    · exact .inr ⟨r', hother j hij ▸ hr, rfl, fun _ => rfl⟩

theorem State.CauseOf.internal {i : SlotNo} (h : s.CauseOf i) : Config.hostSlots ≤ i.val := by
  rcases h with ⟨p, hi, -⟩ | ⟨rfl, -⟩ | ⟨rfl, -⟩
  · rw [hi]; exact Nat.le_add_right 24 _
  · decide
  · decide

theorem Atom.derives {w : Option SlotNo} (ht : Atom w s t) (h : s.SlotsByOrigin) : s.Derives t := by
  cases ht with
  | amend _ i r r' hr ha =>
    refine State.derives_of_slot (i := i) (fun j hj => by rw [State.record_setRecord, if_neg hj]) fun q hq => ?_
    rw [State.record_setRecord, if_pos rfl] at hq
    cases hq
    exact .inr ⟨r, hr, ha.origin, fun _ => ha.tag⟩
  | refit _ change hc =>
    intro j r' hr
    rw [State.record_mapRecords] at hr
    obtain ⟨r, hrec, rfl⟩ := Option.map_eq_some_iff.mp hr
    obtain ⟨raiser, muted, ho, he⟩ := hc r
    rw [he]
    exact .inr ⟨r, hrec, ho, fun _ => rfl⟩
  | vacate _ i r =>
    refine State.derives_of_slot (i := i) (fun j hj => by rw [State.record_vacate, if_neg hj]) fun q hq => ?_
    rw [State.record_vacate, if_pos rfl] at hq
    cases hq
  | toFallback _ i =>
    refine State.derives_of_slot (i := i) (fun j hj => by rw [State.record_switchToFallback, if_neg hj]) fun q hq => ?_
    rw [State.record_switchToFallback, if_pos rfl] at hq
    obtain ⟨r, hr, rfl⟩ := Option.map_eq_some_iff.mp hq
    exact .inr ⟨r, hr, rfl, fun _ => rfl⟩
  | enroll _ i f hfree hm =>
    refine State.derives_of_slot (i := i) (fun j hj => by rw [State.record_enroll, if_neg hj]) fun q hq => ?_
    rw [State.record_enroll, if_pos rfl] at hq
    cases hq
    exact .inl ⟨rfl, hm.cause.internal⟩
  | reenroll _ i old f hold _ hm =>
    refine State.derives_of_slot (i := i) (fun j hj => by rw [State.record_reenroll, if_neg hj]) fun q hq => ?_
    rw [State.record_reenroll, if_pos rfl] at hq
    cases hq
    exact .inl ⟨(h i old hold).mpr hm.cause.internal, hm.cause.internal⟩
  | setPlay _ play => exact State.derives_of_records fun j => s.record_setPlay play j
  | setLine _ _ line => exact State.derives_of_records fun j => s.record_setLine line j
  | discard _ _ n l => exact State.derives_of_records fun j => s.freeExtent_record l j
  | write _ i x => exact State.derives_of_records fun j => s.record_setWord i x j
  | _ => exact State.derives_of_records fun _ => rfl

theorem State.IdentitiesSound.atom {w : Option SlotNo} (ht : Atom w s t) (h : s.IdentitiesSound) :
    t.IdentitiesSound := h.derives (ht.derives h.1)

theorem State.IdentitiesSound.of_free (h : ∀ i, t.record i = none) : t.IdentitiesSound :=
  ⟨fun i _ hr => (nomatch h i ▸ hr), fun i _ _ hr => (nomatch h i ▸ hr)⟩

theorem State.IdentitiesSound.opens {c : Instr} (ht : Opens c s t) (h : s.IdentitiesSound) : t.IdentitiesSound := by
  cases ht with
  | powerOn => rw [← State.poweredOn]; exact .of_free s.record_poweredOn
  | pinReset => rw [← State.pinned]; exact .of_free s.record_pinned
  | tick =>
    refine h.derives fun j r' hr => ?_
    rw [State.record_advance] at hr
    obtain ⟨r, hrec, rfl⟩ := Option.map_eq_some_iff.mp hr
    exact .inr ⟨r, hrec, rfl, fun _ => rfl⟩
  | _ => exact h.derives (State.derives_of_records fun _ => rfl)

/-- A host record enters a FREE host slot with a tag that no other record of its origin has (R5). -/
theorem State.IdentitiesSound.create (h : s.IdentitiesSound) {i : SlotNo} {p : Port} {f : RaiseFields}
    (hi : i.val < Config.hostSlots) (hnew : ∀ j, ∀ q ∈ s.record j, q.origin = .host p → q.tag ≠ f.tag) :
    (s.enroll i (.host p false) f).IdentitiesSound := by
  obtain ⟨hslots, htags⟩ := h
  refine ⟨fun j r hr => ?_, fun j k r hr q hq hhost horigin htag => ?_⟩
  · rw [State.record_enroll] at hr
    split at hr
    · rename_i hij; subst hij; cases hr
      exact ⟨nofun, fun hle => by omega⟩
    · exact hslots j r hr
  · rw [State.record_enroll] at hr hq
    split at hr <;> split at hq
    · rename_i hij hik; rw [← hij, ← hik]
    · cases hr; exact absurd htag.symm (hnew k q hq horigin.symm)
    · cases hq; exact absurd htag (hnew j r hr horigin)
    · exact htags j k r hr q hq hhost horigin htag

theorem State.IdentitiesSound.serves {c : Instr} {p : Port} (ht : Serves c p s t) (h : s.IdentitiesSound) :
    t.IdentitiesSound := by
  refine ht.keeps State.IdentitiesSound.atom (fun _ _ h => h)
    (fun line h => h.derives (State.derives_of_records fun j => State.record_setLine _ line j)) h ?_ ?_
  · rintro i f l rfl - hi - - hnew
    exact h.create hi hnew
  · rintro i q f l rfl - hr - ho htag -
    refine h.derives (State.derives_of_slot (i := i) (fun j hj => by rw [State.record_reenroll, if_neg hj]) fun r hr' => ?_)
    rw [State.record_reenroll, if_pos rfl] at hr'
    cases hr'
    exact .inr ⟨q, hr, rfl, fun _ => htag.symm⟩

theorem kept_identitiesSound : Kept State.IdentitiesSound where
  pending _ h := h
  atom := State.IdentitiesSound.atom
  opens := State.IdentitiesSound.opens
  remove _ h := h
  serves := State.IdentitiesSound.serves
  reply _ _ h := h

end

/-! ### The Line Monitor (section 6.3) -/

section
variable {s t : State}

theorem State.lineSound_iff (s : State) :
    s.LineSound ↔ s.line.CountsInRange ∧ (s.line.isFault = true → s.params.lineEnable = true) ∧
      (s.lineTimer.isSome = true → s.params.lineEnable = true) := by
  unfold State.LineSound
  cases s.line with
  | normal bad => simp [Line.CountsInRange, Line.isFault]
  | fault kind ok => simp [Line.CountsInRange, Line.isFault, and_assoc]

/-- Only one atom changes the Line Monitor's state. -/
theorem Atom.line_cases {w : Option SlotNo} (ht : Atom w s t) :
    t.line = s.line ∨ t.line.CountsInRange ∧ (t.line.isFault = true → s.line.isFault = true ∨ s.lineTimer.isSome = true) ∧
      (w = some sounderFaultSlot ∨ (s.line.isFault = true → t.line.isFault = true)) := by
  cases ht with
  | setLine _ _ line hc hf hw => rw [State.setLine_line]; exact .inr ⟨hc, hf, hw⟩
  | setPlay _ play => exact .inl (s.setPlay_line play)
  | refit _ change => exact .inl (by rw [State.mapRecords_eq])
  | toFallback _ i => exact .inl (by rw [State.switchToFallback_eq])
  | discard _ _ n l => exact .inl (by rw [State.freeExtent_eq]; rfl)
  | write _ i x => exact .inl (by rw [State.setWord_eq])
  | _ => exact .inl rfl

theorem State.LineSound.atom {w : Option SlotNo} (ht : Atom w s t) (h : s.LineSound) : t.LineSound := by
  rw [State.lineSound_iff] at h ⊢
  obtain ⟨hcounts, hfault, htimer⟩ := h
  rw [ht.frame.params, ht.frame.lineTimer]
  rcases ht.line_cases with he | ⟨hc, hf, -⟩
  · rw [he]; exact ⟨hcounts, hfault, htimer⟩
  · exact ⟨hc, fun hline => (hf hline).elim hfault htimer, htimer⟩

theorem State.lineSound_normal (h : t.line = .normal 0) (ht : t.lineTimer.isSome = true → t.params.lineEnable = true) :
    t.LineSound := by
  rw [State.lineSound_iff, h]
  exact ⟨Nat.zero_le 3, nofun, ht⟩

theorem State.LineSound.opens {c : Instr} (ht : Opens c s t) (h : s.LineSound) : t.LineSound := by
  cases ht with
  | powerOn => exact State.lineSound_normal rfl nofun
  | pinReset =>
    rw [← State.pinned]
    exact State.lineSound_normal s.pinned_same.line (by rw [s.pinned_same.lineTimer]; exact nofun)
  | leaveReset =>
    rw [State.lineSound_iff] at h ⊢
    exact ⟨h.1, fun _ => rfl, fun _ => rfl⟩
  | tick =>
    rw [State.lineSound_iff] at h ⊢
    rw [State.advance_line, State.advance_params]
    refine ⟨h.1, h.2.1, fun hrun => h.2.2 ?_⟩
    simpa only [State.advance, countDown_isSome] using hrun
  | sample _ sense loop htimer =>
    rw [State.lineSound_iff] at h ⊢
    exact ⟨h.1, h.2.1, fun _ => h.2.2 (by rw [htimer]; rfl)⟩
  | _ => exact h

theorem State.LineSound.serves {c : Instr} {p : Port} (ht : Serves c p s t) (h : s.LineSound) : t.LineSound := by
  cases ht with
  | stay => exact h
  | create => exact h
  | realert => exact h
  | configure _ _ id v params hw _ he =>
    rw [State.lineSound_iff] at h ⊢
    show _ ∧ (_ → params.lineEnable = true) ∧ (_ → params.lineEnable = true)
    rw [he]; exact h
  | turnOn _ _ id v params hw _ _ ha => exact State.lineSound_normal (State.setLine_line _ _) (by simp [ha])
  | turnOff _ _ id v params =>
    exact State.lineSound_normal (State.setLine_line _ _) (by rw [State.enableTurnedOff, State.setLine_lineTimer]; exact nofun)
  | turnOffInFault _ _ id v params =>
    refine (Quiets.acts (quiets_internalReturn _ _)).keeps State.LineSound.atom (State.lineSound_normal (State.setLine_line _ _) ?_)
    rw [State.enableTurnedOff, State.setLine_lineTimer]; exact nofun

theorem kept_lineSound : Kept State.LineSound where
  pending _ h := h
  atom := State.LineSound.atom
  opens := State.LineSound.opens
  remove _ h := h
  serves := State.LineSound.serves
  reply _ _ h := h

end

/-! ### The causes of internal records (R23, Table 1.6) -/

theorem State.conditionActive_iff (s : State) (i : SlotNo) :
    s.conditionActive i = true ↔ ∃ r, s.record i = some r ∧ r.state ≠ .returned := by
  simp [State.conditionActive, Option.any_eq_true]

/-- The condition of an internal record is active only while its cause stands, one slot excepted. -/
def State.CausesExcept (s : State) (except : Option SlotNo) : Prop :=
  ∀ i : SlotNo, Config.hostSlots ≤ i.val → except ≠ some i → s.conditionActive i = true → s.CauseOf i

theorem State.causesStand_iff (s : State) : s.CausesStand ↔ s.CausesExcept none := by
  constructor
  · rintro ⟨hports, hline, hstore⟩ i hi - hactive
    rcases (show i.val < 28 ∨ i = 28 ∨ i = 29 by have := i.isLt; simp only [Fin.ext_iff]; simp; omega) with hlt | rfl | rfl
    · have hle : 24 ≤ i.val := hi
      exact .inl ⟨⟨i.val - 24, by omega⟩, by dsimp only; omega, hports ⟨i.val - 24, by omega⟩ i (by dsimp only; omega) hactive⟩
    · exact .inr (.inl ⟨rfl, hline hactive⟩)
    · exact .inr (.inr ⟨rfl, hstore hactive⟩)
  · intro h
    refine ⟨fun p i hi hactive => ?_, fun hactive => ?_, fun hactive => ?_⟩
    · rcases h i (by rw [hi]; exact Nat.le_add_right 24 _) nofun hactive with ⟨q, hq, hlost⟩ | ⟨rfl, -⟩ | ⟨rfl, -⟩
      · obtain rfl : p = q := by ext; omega
        exact hlost
      · have := p.isLt; simp [sounderFaultSlot] at hi; omega
      · have := p.isLt; simp [storeFaultSlot] at hi; omega
    · rcases h 28 (by decide) nofun hactive with ⟨q, hq, -⟩ | ⟨-, hfault⟩ | ⟨hne, -⟩
      · have := q.isLt; simp at hq; omega
      · exact hfault
      · exact absurd hne (by decide)
    · rcases h 29 (by decide) nofun hactive with ⟨q, hq, -⟩ | ⟨hne, -⟩ | ⟨-, hdamaged⟩
      · have := q.isLt; simp at hq; omega
      · exact absurd hne (by decide)
      · exact hdamaged

section
variable {s t : State}

/-- A LOST port stays LOST but through the atom that re-opens it (R128). -/
theorem Atom.lost {w : Option SlotNo} (ht : Atom w s t) {p : Port} (hw : w ≠ some (portLostSlot p))
    (h : (s.port p).session = .lost) : (t.port p).session = .lost := by
  cases ht with
  | post _ e => rw [State.port_post, PortState.offer_session]; exact h
  | subscribe _ q mask attention =>
    rw [State.port_setPort]
    split
    · rename_i hq; subst hq; exact h
    · exact h
  | close _ q hq =>
    rw [State.closeSession, State.port_setPort]
    split
    · rename_i hqp; subst hqp; exact absurd h hq
    · exact h
  | reopen _ _ q hq =>
    rw [State.openSession, State.port_setPort]
    split
    · rename_i hqp; subst hqp
      rcases hq with hq | hq
      · exact absurd hq hw
      · exact absurd h hq
    · exact h
  | setPlay _ play => rw [State.port_setPlay]; exact h
  | setLine _ _ line => rw [State.port_setLine]; exact h
  | refit _ change => rw [State.port_mapRecords]; exact h
  | toFallback _ i => rw [State.switchToFallback_eq]; exact h
  | discard _ _ n l => rw [State.freeExtent_eq]; exact h
  | write _ i x => rw [State.port_setWord]; exact h
  | _ => exact h

/-- An entry changed that is no DAMAGED user entry, or stays one, leaves an entry DAMAGED where one was. -/
theorem damaged_setEntry {n : PatNo} {e : Entry} (he : (s.entry n).body.isDamaged = true → e.body.isDamaged = true)
    (h : 0 < s.damagedCount) : 0 < (s.setEntry n e).damagedCount := by
  rw [damagedCount_pos_iff] at h ⊢
  obtain ⟨m, hu, hm⟩ := h
  refine ⟨m, hu, ?_⟩
  rw [State.entry_setEntry]
  split
  · rename_i hnm; subst hnm; exact he hm
  · exact hm

theorem damaged_of_bodies (hb : ∀ n, (t.entry n).body = (s.entry n).body) (h : 0 < s.damagedCount) :
    0 < t.damagedCount := by
  rw [damagedCount_pos_iff] at h ⊢
  simpa only [hb] using h

/-- An entry stays DAMAGED but through the atom that discards the last one (R86). -/
theorem Atom.damaged {w : Option SlotNo} (ht : Atom w s t) (hw : w ≠ some storeFaultSlot) (h : 0 < s.damagedCount) :
    0 < t.damagedCount := by
  cases ht with
  | damage _ n l => exact damaged_setEntry (fun _ => rfl) h
  | disownReady _ n l _ hb => exact damaged_setEntry (by rw [hb]; exact nofun) h
  | disownDamaged _ n l => exact damaged_setEntry (fun _ => rfl) h
  | discard _ _ n l _ hb _ hd =>
    rcases hd with hd | hd | hd
    · exact absurd hd hw
    · refine damaged_setEntry ?_ (damaged_of_bodies (fun m => by rw [State.freeExtent_entry]) h)
      rw [State.freeExtent_entry, hd]; exact nofun
    · exact hd
  | define _ p n length loopIndex pace start free hb =>
    exact damaged_setEntry (s := { s with free := free })
      (by rw [show State.entry { s with free := free } n = s.entry n from rfl, hb]; exact nofun) h
  | fill _ n l before after hb => exact damaged_setEntry (by rw [hb]; exact nofun) h
  | commit _ n l filled hb => exact damaged_setEntry (by rw [hb]; exact nofun) h
  | vacate _ i r => exact damaged_of_bodies (s.body_vacate i · r) h
  | toFallback _ i => exact damaged_of_bodies (s.body_switchToFallback i) h
  | enroll _ i f => exact damaged_of_bodies (s.body_enroll i · .internal f) h
  | reenroll _ i old f => exact damaged_of_bodies (s.body_reenroll i · old f) h
  | refit _ change => exact damaged_of_bodies (fun n => by rw [State.entry_mapRecords]) h
  | setPlay _ play => exact damaged_of_bodies (fun n => by rw [State.entry_setPlay]) h
  | setLine _ _ line => exact damaged_of_bodies (fun n => by rw [State.entry_setLine]) h
  | write _ i x => exact damaged_of_bodies (fun n => by rw [State.entry_setWord]) h
  | _ => exact h

/-- A cause stands through every atom that does not remove it. -/
theorem Atom.cause {w : Option SlotNo} (ht : Atom w s t) {i : SlotNo} (hw : w ≠ some i) (h : s.CauseOf i) :
    t.CauseOf i := by
  rcases h with ⟨p, hi, hlost⟩ | ⟨rfl, hfault⟩ | ⟨rfl, hdamaged⟩
  · refine .inl ⟨p, hi, ht.lost (fun he => hw ?_) hlost⟩
    rw [he]; congr 1; exact Fin.ext hi.symm
  · refine .inr (.inl ⟨rfl, ?_⟩)
    rcases ht.line_cases with he | ⟨-, -, he | he⟩
    · rw [he]; exact hfault
    · exact absurd he hw
    · exact he hfault
  · exact .inr (.inr ⟨rfl, ht.damaged hw hdamaged⟩)

/-- A condition becomes active only with its cause (R21, R23). -/
theorem Atom.active {w : Option SlotNo} (ht : Atom w s t) {j : SlotNo} (h : t.conditionActive j = true) :
    s.conditionActive j = true ∨ w = none ∧ s.CauseOf j := by
  rw [State.conditionActive_iff] at h ⊢
  obtain ⟨r', hr', hstate⟩ := h
  cases ht with
  | amend _ i r q hr ha =>
    rw [State.record_setRecord] at hr'
    split at hr'
    · rename_i hij; subst hij; cases hr'
      exact .inl ⟨r, hr, fun h => hstate (ha.returned h)⟩
    · exact .inl ⟨r', hr', hstate⟩
  | refit _ change hc =>
    rw [State.record_mapRecords] at hr'
    obtain ⟨r, hr, rfl⟩ := Option.map_eq_some_iff.mp hr'
    obtain ⟨raiser, muted, -, he⟩ := hc r
    exact .inl ⟨r, hr, by rwa [he] at hstate⟩
  | vacate _ i r =>
    rw [State.record_vacate] at hr'
    split at hr'
    · cases hr'
    · exact .inl ⟨r', hr', hstate⟩
  | toFallback _ i =>
    rw [State.record_switchToFallback] at hr'
    split at hr'
    · rename_i hij; subst hij
      obtain ⟨r, hr, rfl⟩ := Option.map_eq_some_iff.mp hr'
      exact .inl ⟨r, hr, hstate⟩
    · exact .inl ⟨r', hr', hstate⟩
  | enroll _ i f _ hm =>
    rw [State.record_enroll] at hr'
    split at hr'
    · rename_i hij; subst hij; exact .inr ⟨rfl, hm.cause⟩
    · exact .inl ⟨r', hr', hstate⟩
  | reenroll _ i old f _ _ hm =>
    rw [State.record_reenroll] at hr'
    split at hr'
    · rename_i hij; subst hij; exact .inr ⟨rfl, hm.cause⟩
    · exact .inl ⟨r', hr', hstate⟩
  | setPlay _ play => rw [State.record_setPlay] at hr'; exact .inl ⟨r', hr', hstate⟩
  | setLine _ _ line => rw [State.record_setLine] at hr'; exact .inl ⟨r', hr', hstate⟩
  | discard _ _ n l => exact .inl ⟨r', (s.freeExtent_record l j).symm.trans hr', hstate⟩
  | write _ i x => rw [State.record_setWord] at hr'; exact .inl ⟨r', hr', hstate⟩
  | _ => exact .inl ⟨r', hr', hstate⟩

theorem State.CausesExcept.atom {w except : Option SlotNo} (ht : Atom w s t) (hw : w = none ∨ w = except)
    (h : s.CausesExcept except) : t.CausesExcept except := by
  intro i hi hne hactive
  have hwi : w ≠ some i := by
    rcases hw with rfl | rfl
    · nofun
    · exact hne
  rcases ht.active hactive with hs | ⟨-, hcause⟩
  · exact ht.cause hwi (h i hi hne hs)
  · exact ht.cause hwi hcause

theorem State.CausesExcept.quiets {except : Option SlotNo} (ht : Quiets s t) (h : s.CausesExcept except) :
    t.CausesExcept except := by
  induction ht with
  | refl => exact h
  | tail _ hatom ih => exact ih.atom hatom (.inl rfl)

/-- An internal return leaves the condition of the slot inactive (R22). -/
theorem State.conditionActive_internalReturn (s : State) (i : SlotNo) :
    (s.internalReturn i).1.conditionActive i = false := by
  rw [Bool.eq_false_iff, ne_eq, State.conditionActive_iff]
  rintro ⟨q, hq, hstate⟩
  rcases s.internalReturn_cases i with ⟨hr, he⟩ | ⟨r, hr, hst, he⟩ | ⟨r, who, hr, hst, he⟩ | ⟨r, hr, hst, he⟩ <;>
    rw [he] at hq
  · rw [hr] at hq; cases hq
  · rw [State.returnRecord, State.postRecord] at hq
    change (s.setRecord i _).record i = _ at hq
    rw [State.record_setRecord, if_pos rfl] at hq
    cases hq
    exact hstate rfl
  · rw [State.freeRecord_eq_vacate hr, State.record_vacate, if_pos rfl] at hq
    cases hq
  · rw [hr] at hq; cases hq; exact hstate hst

/-- The return of the excepted slot's record ends the exception. -/
theorem State.CausesExcept.settle {i : SlotNo} (h : s.CausesExcept (some i)) :
    (s.internalReturn i).1.CausesExcept none := by
  rintro j hj - hactive
  by_cases hij : i = j
  · subst hij; rw [State.conditionActive_internalReturn] at hactive; cases hactive
  · exact h.quiets (quiets_internalReturn s i) j hj (by simpa using hij) hactive

theorem State.CausesExcept.weaken (h : s.CausesExcept none) (except : Option SlotNo) : s.CausesExcept except :=
  fun i hi _ => h i hi nofun

theorem State.CausesExcept.acts (ht : Acts s t) (h : s.CausesExcept none) : t.CausesExcept none := by
  induction ht with
  | refl => exact h
  | tail _ hact ih =>
    cases hact with
    | quiet hatom => exact ih.atom hatom (.inl rfl)
    | settle i hatom hq => exact (((ih.weaken (some i)).atom hatom (.inr rfl)).quiets hq).settle

/-- What the causes depend on: the conditions, the LOST ports, the Line Monitor and the entries. -/
theorem State.CausesExcept.congr (h : s.CausesExcept none)
    (ha : ∀ i, Config.hostSlots ≤ i.val → t.conditionActive i = true → s.conditionActive i = true)
    (hp : ∀ p, (s.port p).session = .lost → (t.port p).session = .lost) (hl : t.line = s.line)
    (he : ∀ n, (t.entry n).body = (s.entry n).body) : t.CausesExcept none := by
  intro i hi _ hactive
  rcases h i hi nofun (ha i hi hactive) with ⟨p, hip, hlost⟩ | ⟨rfl, hfault⟩ | ⟨rfl, hdamaged⟩
  · exact .inl ⟨p, hip, hp p hlost⟩
  · exact .inr (.inl ⟨rfl, hl ▸ hfault⟩)
  · exact .inr (.inr ⟨rfl, damaged_of_bodies he hdamaged⟩)

theorem State.CausesExcept.of_free (h : ∀ i, t.record i = none) : t.CausesExcept none := fun i _ _ hactive => by
  obtain ⟨r, hr, -⟩ := (t.conditionActive_iff i).mp hactive
  rw [h] at hr; cases hr

/-- A port replaced by one that is LOST where it was. -/
theorem State.CausesExcept.setPort (h : s.CausesExcept none) (p : Port) {x : PortState}
    (hx : (s.port p).session = .lost → x.session = .lost) : (s.setPort p x).CausesExcept none := by
  refine h.congr (fun _ _ h => h) (fun q hq => ?_) rfl fun _ => rfl
  rw [State.port_setPort]
  split
  · rename_i hpq; subst hpq; exact hx hq
  · exact hq

theorem PortState.endTransaction_session (x : PortState) (c : Params) : (x.endTransaction c).session = x.session := by
  have hremove (y : PortState) (t : Transaction) : (y.removeOutbound t).session = y.session := by
    unfold PortState.removeOutbound
    split
    · split <;> rfl
    · rfl
  have hrestart (y : PortState) : (y.restartKeepalive c).session = y.session := by
    unfold PortState.restartKeepalive; split <;> rfl
  have hoffer (y : PortState) (r : Request) : (y.offerRequest r).session = y.session := by
    unfold PortState.offerRequest; split <;> rfl
  unfold PortState.endTransaction
  split
  · rfl
  · dsimp only
    split
    · rfl
    · unfold PortState.judgeFrame
      split
      · exact hremove _ _
      · rw [hrestart]; exact hremove _ _
      · rw [hrestart, hoffer, hremove]

theorem State.CausesExcept.opens {c : Instr} (ht : Opens c s t) (h : s.CausesExcept none) : t.CausesExcept none := by
  cases ht with
  | powerOn => rw [← State.poweredOn]; exact .of_free s.record_poweredOn
  | pinReset => rw [← State.pinned]; exact .of_free s.record_pinned
  | tick =>
    refine h.congr (fun i _ hactive => ?_) (fun p hlost => by rw [State.port_advance]; exact hlost)
      s.advance_line fun n => by rw [State.entry_advance]
    rw [State.conditionActive_iff] at hactive ⊢
    obtain ⟨r', hr', hstate⟩ := hactive
    rw [State.record_advance] at hr'
    obtain ⟨r, hr, rfl⟩ := Option.map_eq_some_iff.mp hr'
    exact ⟨r, hr, hstate⟩
  | rise _ p => exact h.setPort p fun hlost => (PortState.endTransaction_session _ _).trans hlost
  | lose _ p => exact h.setPort p fun _ => rfl
  | fallInReset _ p => exact h.setPort p id
  | fall _ p => exact h.setPort p id
  | clock _ p => exact h.setPort p id
  | _ => exact h.congr (fun _ _ h => h) (fun _ h => h) rfl fun _ => rfl

/-- A host record's slot is no internal one, so what enters it has no cause to stand (R1). -/
theorem State.CausesExcept.hostSlot (h : s.CausesExcept none) {i : SlotNo} (hi : i.val < Config.hostSlots)
    (hr : ∀ j, i ≠ j → t.record j = s.record j) (hp : ∀ p, t.port p = s.port p) (hl : t.line = s.line)
    (he : ∀ n, (t.entry n).body = (s.entry n).body) : t.CausesExcept none := by
  refine h.congr (fun j hj hactive => ?_) (fun p hlost => by rw [hp]; exact hlost) hl he
  have hij : i ≠ j := by rintro rfl; omega
  rw [State.conditionActive_iff] at hactive ⊢
  rwa [hr j hij] at hactive

/-- The Line Monitor forced NORMAL where it was not in FAULT removes no cause (R112). -/
theorem State.CausesExcept.configured (h : s.CausesExcept none) (params : Params) (timer : Option Nat)
    (hf : s.line.isFault = false) :
    (State.setLine { s with params := params, lineTimer := timer } (.normal 0)).CausesExcept none :=
  State.CausesExcept.atom (s := { s with params := params, lineTimer := timer })
    (Atom.setLine none _ _ (Nat.zero_le 3) nofun (.inr fun hfault => by simp [hf] at hfault)) (.inl rfl) h

theorem State.CausesExcept.serves {c : Instr} {p : Port} (ht : Serves c p s t) (hslots : s.SlotsByOrigin)
    (hline : s.LineSound) (h : s.CausesExcept none) : t.CausesExcept none := by
  cases ht with
  | stay => exact h
  | create _ _ i f l _ hi =>
    exact h.hostSlot hi (fun j hj => by rw [State.record_enroll, if_neg hj]) (fun _ => rfl) rfl (s.body_enroll i · _ f)
  | realert _ _ i f q l _ hr _ ho =>
    have hi : i.val < Config.hostSlots := by
      refine Nat.lt_of_not_le fun hle => ?_
      rw [(hslots i q hr).mpr hle] at ho
      cases ho
    exact h.hostSlot hi (fun j hj => by rw [State.record_reenroll, if_neg hj]) (fun _ => rfl) rfl (s.body_reenroll i · q f)
  | configure _ _ id v params => exact h.congr (fun _ _ h => h) (fun _ h => h) rfl fun _ => rfl
  | turnOn _ _ id v params _ _ hb =>
    refine h.configured params _ (Bool.eq_false_iff.mpr fun hfault => ?_)
    rw [((s.lineSound_iff).mp hline).2.1 hfault] at hb
    cases hb
  | turnOff _ _ id v params _ _ _ _ hl => exact h.configured params _ hl
  | turnOffInFault _ _ id v params =>
    have hforced : (s.enableTurnedOff params).CausesExcept (some sounderFaultSlot) :=
      State.CausesExcept.atom (s := { s with params := params, lineTimer := none })
        (Atom.setLine (some sounderFaultSlot) _ _ (Nat.zero_le 3) nofun (.inl rfl)) (.inr rfl)
        (State.CausesExcept.weaken h _)
    exact hforced.settle

theorem State.CausesExcept.step (ht : step s = .next t) (hslots : s.SlotsByOrigin) (hline : s.LineSound)
    (h : s.CausesExcept none) : t.CausesExcept none := by
  rcases step_cases ht with rfl | ⟨c, rest, -, hexec⟩
  · exact h
  · rcases exec_carried hexec with rfl | ⟨-, s0, hopens, hacts⟩ | ⟨-, p, r, rest, a, -, -, ⟨⟨s1, hserves, hacts⟩, -⟩, rfl⟩
    · exact h
    · exact (State.CausesExcept.opens (s := { s with pending := rest }) hopens h).acts hacts
    · have hremoved : (State.removeRequest { s with pending := _ } p).CausesExcept none := h.setPort p id
      exact ((hremoved.serves hserves hslots hline).acts hacts).setPort p id

end

/-- Settles O58: a condition becomes active only with its cause, and a cause goes only with the return of its record. -/
theorem stepKeepsCauses : Obligations.StepKeepsCauses := by
  intro s t hcauses hslots htags hline ht
  obtain ⟨hslots', htags'⟩ := kept_identitiesSound.step ht ⟨hslots, htags⟩
  exact ⟨t.causesStand_iff.mpr ((s.causesStand_iff.mp hcauses).step ht hslots hline), hslots', htags',
    kept_lineSound.step ht hline⟩

end Sys2Proof.Machine
end


-- ==== Sys2Proof/Proofs/Extents.lean ====
section
/-! PROOF. The Free Extent List: an extent freed or taken leaves the list sound and moves just its own indices (R73 to
R75). -/

namespace Sys2Proof.Machine

theorem Extent.covers_iff (x : Extent) (k : Nat) : x.covers k = true ↔ x.start ≤ k ∧ k < x.start + x.length := by
  simp [Extent.covers]

/-- Two extents that meet cover between them what their union covers, each index once. -/
theorem Extent.covers_join {x y : Extent} (h : x.start + x.length = y.start) (k : Nat) :
    (Extent.covers { start := x.start, length := x.length + y.length } k).toNat =
      (x.covers k).toNat + (y.covers k).toNat := by
  simp only [Extent.covers]
  by_cases h1 : x.start ≤ k <;> by_cases h2 : k < x.start + x.length <;> by_cases h3 : y.start ≤ k <;>
    by_cases h4 : k < y.start + y.length <;> simp [h1, h2, h3, h4] <;> omega

/-- How often the extents of a list cover an index. -/
def coverCount (extents : List Extent) (k : Nat) : Nat := extents.countP (fun x => x.covers k)

theorem coverCount_cons (x : Extent) (extents : List Extent) (k : Nat) :
    coverCount (x :: extents) k = coverCount extents k + (x.covers k).toNat := by
  rw [coverCount, List.countP_cons, coverCount]; cases x.covers k <;> rfl

theorem any_covers_iff (extents : List Extent) (k : Nat) :
    extents.any (fun x => x.covers k) = true ↔ 0 < coverCount extents k := by
  rw [coverCount, List.countP_pos_iff, List.any_eq_true]

/-! ### An extent freed (R75) -/

/-- A freed extent adds its own indices to the free ones. -/
theorem coverCount_insertExtent (e : Extent) (free : List Extent) (k : Nat) :
    coverCount (insertExtent e free) k = coverCount free k + (e.covers k).toNat := by
  induction free generalizing e with
  | nil => exact coverCount_cons e [] k
  | cons x rest ih =>
    unfold insertExtent
    split
    · rw [coverCount_cons, coverCount_cons, ih]; omega
    · split
      · rename_i hmeet
        rw [ih, coverCount_cons, Extent.covers_join hmeet]; omega
      · split
        · rename_i hmeet
          rw [coverCount_cons, coverCount_cons, Extent.covers_join hmeet]; omega
        · rw [coverCount_cons]

/-- No extent of the list begins before both the freed one and those that were there. -/
theorem lt_start_of_mem_insertExtent {e : Extent} {free : List Extent} {b : Nat} (he : b < e.start)
    (hfree : ∀ x ∈ free, b < x.start) : ∀ x ∈ insertExtent e free, b < x.start := by
  induction free generalizing e with
  | nil => simpa [insertExtent] using he
  | cons x rest ih =>
    rw [List.forall_mem_cons] at hfree
    obtain ⟨hx, hrest⟩ := hfree
    unfold insertExtent
    split
    · exact List.forall_mem_cons.mpr ⟨hx, ih he hrest⟩
    · split
      · exact ih hx hrest
      · split
        · exact List.forall_mem_cons.mpr ⟨he, hrest⟩
        · exact List.forall_mem_cons.mpr ⟨he, List.forall_mem_cons.mpr ⟨hx, hrest⟩⟩

theorem freeListSound_cons {x : Extent} {rest : List Extent} :
    FreeListSound (x :: rest) ↔ 1 ≤ x.length ∧ (∀ y ∈ rest, x.start + x.length < y.start) ∧ FreeListSound rest := by
  unfold FreeListSound
  rw [List.forall_mem_cons, List.pairwise_cons]
  tauto

/-- A freed extent that overlaps no free one leaves the list in ascending order with no two extents adjacent (R75). -/
theorem FreeListSound.insertExtent {e : Extent} {free : List Extent} (h : FreeListSound free) (he : 1 ≤ e.length)
    (hdisjoint : ∀ x ∈ free, ∀ k, x.covers k = true → e.covers k = false) :
    FreeListSound (insertExtent e free) := by
  induction free generalizing e with
  | nil => exact freeListSound_cons.mpr ⟨he, nofun, h⟩
  | cons x rest ih =>
    obtain ⟨hx, hafter, hrest⟩ := freeListSound_cons.mp h
    rw [List.forall_mem_cons] at hdisjoint
    obtain ⟨hxe, hothers⟩ := hdisjoint
    unfold Machine.insertExtent
    split
    · rename_i hlt
      exact freeListSound_cons.mpr ⟨hx, lt_start_of_mem_insertExtent hlt hafter, ih hrest he hothers⟩
    · split
      · rename_i hmeet
        refine ih hrest (by dsimp only; omega) fun y hy k hk => ?_
        have hek := hothers y hy k hk
        have hyx := hafter y hy
        rw [← Bool.not_eq_true, Extent.covers_iff] at hek ⊢
        rw [Extent.covers_iff] at hk
        dsimp only
        omega
      · split
        · rename_i hmeet
          refine freeListSound_cons.mpr ⟨by dsimp only; omega, fun y hy => ?_, hrest⟩
          have hyx := hafter y hy
          dsimp only
          omega
        · rename_i hge hne hne'
          have hstart := hxe x.start ((x.covers_iff _).mpr ⟨Nat.le_refl _, by omega⟩)
          have hbefore : ¬ x.covers e.start = true := fun hk => by
            have := hxe e.start hk
            rw [(e.covers_iff _).mpr ⟨Nat.le_refl _, by omega⟩] at this
            cases this
          rw [← Bool.not_eq_true, Extent.covers_iff] at hstart
          rw [Extent.covers_iff] at hbefore
          have hlt : e.start + e.length < x.start := by omega
          refine freeListSound_cons.mpr ⟨he, List.forall_mem_cons.mpr ⟨hlt, fun y hy => ?_⟩, h⟩
          have hyx := hafter y hy
          omega

/-- Settles O30. -/
theorem freedExtentMerges : Obligations.FreedExtentMerges := by
  intro e free hfree he hdisjoint
  refine ⟨hfree.insertExtent he hdisjoint, fun k => ?_, insertExtent_length e free⟩
  rw [Bool.eq_iff_iff, Bool.or_eq_true, any_covers_iff, any_covers_iff, coverCount_insertExtent]
  cases e.covers k <;> simp

/-! ### An extent taken by first fit (R74) -/

/-- First fit takes from the free indices those of the extent it gives. -/
theorem coverCount_firstFit {n start : Nat} {free rest : List Extent} (h : firstFit n free = some (start, rest))
    (k : Nat) : coverCount free k = coverCount rest k + (Extent.covers { start := start, length := n } k).toNat := by
  induction free generalizing rest with
  | nil => cases h
  | cons x others ih =>
    unfold firstFit at h
    split at h
    · rename_i hlt
      cases h
      have hjoin := Extent.covers_join (x := { start := x.start, length := n })
        (y := { start := x.start + n, length := x.length - n }) rfl k
      dsimp only at hjoin
      rw [show n + (x.length - n) = x.length by omega, show Extent.mk x.start x.length = x from rfl] at hjoin
      rw [coverCount_cons, coverCount_cons]
      omega
    · split at h
      · rename_i heq
        cases h
        rw [coverCount_cons, heq]
      · obtain ⟨found, hfound, he⟩ := Option.map_eq_some_iff.mp h
        cases he
        rw [coverCount_cons, coverCount_cons, ih hfound]
        omega

/-- What first fit leaves begins where something free began, or later. -/
theorem start_le_of_mem_firstFit {n start : Nat} {free rest : List Extent} (h : firstFit n free = some (start, rest)) :
    ∀ y ∈ rest, ∃ x ∈ free, x.start ≤ y.start := by
  induction free generalizing rest with
  | nil => cases h
  | cons x others ih =>
    unfold firstFit at h
    split at h
    · cases h
      refine List.forall_mem_cons.mpr ⟨⟨x, List.mem_cons_self .., Nat.le_add_right ..⟩, fun y hy => ?_⟩
      exact ⟨y, List.mem_cons_of_mem x hy, Nat.le_refl _⟩
    · split at h
      · cases h
        exact fun y hy => ⟨y, List.mem_cons_of_mem x hy, Nat.le_refl _⟩
      · obtain ⟨found, hfound, he⟩ := Option.map_eq_some_iff.mp h
        cases he
        refine List.forall_mem_cons.mpr ⟨⟨x, List.mem_cons_self .., Nat.le_refl _⟩, fun y hy => ?_⟩
        obtain ⟨z, hz, hle⟩ := ih hfound y hy
        exact ⟨z, List.mem_cons_of_mem x hz, hle⟩

theorem FreeListSound.firstFit {n start : Nat} {free rest : List Extent} (h : FreeListSound free)
    (hfit : firstFit n free = some (start, rest)) : FreeListSound rest := by
  induction free generalizing rest with
  | nil => cases hfit
  | cons x others ih =>
    obtain ⟨hx, hafter, hothers⟩ := freeListSound_cons.mp h
    unfold Machine.firstFit at hfit
    split at hfit
    · cases hfit
      refine freeListSound_cons.mpr ⟨by dsimp only; omega, fun y hy => ?_, hothers⟩
      have := hafter y hy
      dsimp only
      omega
    · split at hfit
      · cases hfit; exact hothers
      · obtain ⟨found, hfound, he⟩ := Option.map_eq_some_iff.mp hfit
        cases he
        refine freeListSound_cons.mpr ⟨hx, fun y hy => ?_, ih hothers hfound⟩
        obtain ⟨z, hz, hle⟩ := start_le_of_mem_firstFit hfound y hy
        exact Nat.lt_of_lt_of_le (hafter z hz) hle

end Sys2Proof.Machine
end


-- ==== Sys2Proof/Proofs/StoreDivided.lean ====
section
/-! PROOF. Every step keeps the Step Store divided between the user entries and the Free Extent List, and in canonical
form (R70, R73): an entry's extent is taken from the list by a definition and goes back to it with the entry. -/

namespace Sys2Proof.Machine

/-! ### One entry's part of the division -/

/-- The fields of an entry are in the ranges of Table 4.1. -/
def EntryBody.InRange : EntryBody → Prop
  | .empty => True
  | .loading l fill => l.InRange ∧ fill ≤ l.length
  | .ready l => l.InRange
  | .damaged l => l.InRange

theorem EntryBody.InRange.layout {b : EntryBody} {l : Layout} (h : b.InRange) (hl : b.layout = some l) :
    l.InRange := by
  cases b with
  | empty => cases hl
  | loading => cases hl; exact h.1
  | ready => cases hl; exact h
  | damaged => cases hl; exact h

theorem State.entriesInRange_iff (s : State) :
    s.EntriesInRange ↔ ∀ n, isBuiltIn n = false → (s.entry n).body.InRange := by
  refine forall_congr' fun n => imp_congr_right fun _ => ?_
  cases (s.entry n).body <;> rfl

/-- The extent of an entry covers an index. -/
def Entry.covers (e : Entry) (k : Nat) : Bool := (e.extent.map fun x => x.covers k).getD false

theorem countP_add_of_mem {α : Type} [DecidableEq α] {l : List α} (hl : l.Nodup) {f g : α → Bool} {a : α} (ha : a ∈ l)
    (h : ∀ b, a ≠ b → f b = g b) : l.countP f + (g a).toNat = l.countP g + (f a).toNat := by
  have hperm := List.perm_cons_erase ha
  have hrest : (l.erase a).countP f = (l.erase a).countP g :=
    List.countP_congr fun b hb => by rw [h b (Ne.symm (hl.mem_erase_iff.mp hb).1)]
  rw [hperm.countP_eq, hperm.countP_eq, List.countP_cons, List.countP_cons, hrest]
  cases f a <;> cases g a <;> simp [Nat.add_comm]

/-- How often the user entries cover an index. -/
def State.reservedCount (s : State) (k : Nat) : Nat := userNumbers.countP (fun n => (s.entry n).covers k)

theorem State.coveredOnce_iff (s : State) :
    s.CoveredOnce ↔ ∀ k, s.reservedCount k + coverCount s.free k = if k < Config.stepWords then 1 else 0 := by
  refine forall_congr' fun k => ?_
  rw [List.countP_append, State.reserved, List.countP_filterMap]
  rfl

section
variable {s t : State}

/-- The division depends on the user entries' fields and the Free Extent List alone. -/
theorem State.StoreDivided.congr (h : s.StoreDivided) (hb : ∀ n, isBuiltIn n = false → (t.entry n).body = (s.entry n).body)
    (hf : t.free = s.free) : t.StoreDivided := by
  obtain ⟨hentries, hcover, hfree⟩ := h
  rw [State.entriesInRange_iff] at hentries
  rw [State.coveredOnce_iff] at hcover
  refine ⟨t.entriesInRange_iff.mpr fun n hu => hb n hu ▸ hentries n hu, t.coveredOnce_iff.mpr fun k => ?_, hf ▸ hfree⟩
  rw [← hcover k, hf]
  congr 1
  refine List.countP_congr fun n hn => ?_
  rw [Entry.covers, Entry.extent, hb n ((mem_userNumbers n).mp hn)]
  rfl

/-- One user entry and the Free Extent List changed: what the one gains in indices, the other loses. -/
theorem State.StoreDivided.setEntry (h : s.StoreDivided) {n : PatNo} (hu : isBuiltIn n = false) {e : Entry}
    {free : List Extent} (he : e.body.InRange) (hfree : FreeListSound free)
    (hcount : ∀ k, coverCount free k + (e.covers k).toNat = coverCount s.free k + ((s.entry n).covers k).toNat) :
    (State.setEntry { s with free := free } n e).StoreDivided := by
  obtain ⟨hentries, hcover, -⟩ := h
  rw [State.entriesInRange_iff] at hentries
  rw [State.coveredOnce_iff] at hcover
  have hentry (m : PatNo) : (State.setEntry { s with free := free } n e).entry m = if n = m then e else s.entry m :=
    State.entry_setEntry _ n m e
  refine ⟨(State.entriesInRange_iff _).mpr fun m hm => ?_, (State.coveredOnce_iff _).mpr fun k => ?_, hfree⟩
  · rw [hentry]
    split
    · exact he
    · exact hentries m hm
  · have hone := countP_add_of_mem (l := userNumbers) nodup_userNumbers ((mem_userNumbers n).mpr hu)
      (f := fun m => ((State.setEntry { s with free := free } n e).entry m).covers k) (g := fun m => (s.entry m).covers k)
      (fun m hm => by rw [hentry, if_neg hm])
    rw [hentry, if_pos rfl] at hone
    have hk := hcount k
    rw [← hcover k]
    simp only [State.reservedCount]
    show _ + coverCount free k = _
    omega

/-- A user entry changed that keeps its extent. -/
theorem State.StoreDivided.setBody (h : s.StoreDivided) {n : PatNo} (hu : isBuiltIn n = false) {e : Entry}
    (he : e.body.InRange) (hextent : e.extent = (s.entry n).extent) : (s.setEntry n e).StoreDivided :=
  State.StoreDivided.setEntry (free := s.free) h hu he h.2.2 fun k => by rw [Entry.covers, hextent]; rfl

theorem Entry.covers_of_start {e : Entry} {l : Layout} {start : Nat} (hl : e.body.layout = some l)
    (hstart : l.start = some start) (k : Nat) :
    e.covers k = Extent.covers { start := start, length := l.length } k := by
  simp [Entry.covers, Entry.extent, hl, hstart]

/-- An index that a user entry covers is covered by no free extent (R73). -/
theorem State.StoreDivided.free_disjoint (h : s.StoreDivided) {n : PatNo} (hu : isBuiltIn n = false) {k : Nat}
    (hk : (s.entry n).covers k = true) : coverCount s.free k = 0 := by
  obtain ⟨-, hcover, -⟩ := h
  rw [State.coveredOnce_iff] at hcover
  have hpos : 0 < s.reservedCount k := List.countP_pos_iff.mpr ⟨n, (mem_userNumbers n).mpr hu, hk⟩
  have hone := hcover k
  split at hone <;> omega

/-- A user entry that becomes EMPTY gives its extent back (R75). -/
theorem State.StoreDivided.discard (h : s.StoreDivided) {n : PatNo} (hu : isBuiltIn n = false) {l : Layout}
    (hl : (s.entry n).body.layout = some l) : ((s.freeExtent l).setEntry n Entry.empty).StoreDivided := by
  have ⟨hentries, _, hfree⟩ := h
  obtain ⟨hstart, hlength, -⟩ := (((State.entriesInRange_iff s).mp hentries) n hu).layout hl
  obtain ⟨start, hstart⟩ := Option.isSome_iff_exists.mp hstart
  have hcovers := Entry.covers_of_start hl hstart
  have heq : s.freeExtent l =
      { s with free := insertExtent { start := start, length := l.length } s.free } := by
    simp only [State.freeExtent, hstart]
  rw [heq]
  refine State.StoreDivided.setEntry h hu trivial (hfree.insertExtent hlength fun x hx k hk => ?_) fun k => ?_
  · rw [← hcovers, ← Bool.not_eq_true]
    intro hn
    have hnone := h.free_disjoint hu hn
    have : 0 < coverCount s.free k := List.countP_pos_iff.mpr ⟨x, hx, hk⟩
    omega
  · rw [coverCount_insertExtent, hcovers]; rfl

/-- An EMPTY user entry takes the extent that first fit gives (R74, R76). -/
theorem State.StoreDivided.define (h : s.StoreDivided) {n : PatNo} (hu : isBuiltIn n = false) {l : Layout} {start : Nat}
    {free : List Extent} (hb : (s.entry n).body = .empty) (hfit : firstFit l.length s.free = some (start, free))
    (hstart : l.start = some start) (hl : l.InRange) :
    (State.setEntry { s with free := free } n { body := .loading l 0, refs := 0 }).StoreDivided := by
  refine State.StoreDivided.setEntry h hu ⟨hl, Nat.zero_le _⟩ (h.2.2.firstFit hfit) fun k => ?_
  rw [Entry.covers_of_start (e := { body := .loading l 0, refs := 0 }) rfl hstart, coverCount_firstFit hfit]
  simp [Entry.covers, Entry.extent, hb, EntryBody.layout]

/-- One user entry at a pin reset (R91). -/
theorem State.StoreDivided.pinResetEntry (h : s.StoreDivided) {n : PatNo} (hu : isBuiltIn n = false) :
    (s.pinResetEntry n).StoreDivided := by
  have hrange := (State.entriesInRange_iff s).mp h.1 n hu
  unfold State.pinResetEntry
  split
  next hb => exact h.setBody hu trivial (by rw [Entry.extent, Entry.extent, hb]; rfl)
  next l fill hb => exact h.discard hu (by rw [hb]; rfl)
  next l hb =>
    rw [hb] at hrange
    exact h.setBody hu hrange (by rw [Entry.extent, Entry.extent, hb]; rfl)
  next l hb =>
    rw [hb] at hrange
    exact h.setBody hu hrange (by rw [Entry.extent, Entry.extent, hb]; rfl)

theorem State.StoreDivided.pinned (h : s.StoreDivided) : s.pinned.StoreDivided := by
  have hfold : ∀ (l : List PatNo) (t : State), (∀ n ∈ l, isBuiltIn n = false) → t.StoreDivided →
      (l.foldl State.pinResetEntry t).StoreDivided := by
    intro l
    induction l with
    | nil => exact fun _ _ ht => ht
    | cons n l ih =>
      intro t hl ht
      rw [List.forall_mem_cons] at hl
      exact ih _ hl.2 (ht.pinResetEntry hl.1)
  have hblocks : s.blocksReset.StoreDivided := h.congr (fun _ _ => rfl) rfl
  have husers := hfold userNumbers _ (fun n hn => (mem_userNumbers n).mp hn) hblocks
  rw [State.pinned]
  generalize List.foldl State.pinResetEntry s.blocksReset userNumbers = t at husers ⊢
  refine husers.congr (fun n hn => ?_) (by rw [State.pinResetBuiltIns_eq])
  rw [State.entry_pinResetBuiltIns, if_neg (by simp [hn])]

theorem storeDivided_of_reset (he : ∀ n, t.entry n = State.reset.entry n) (hf : t.free = State.reset.free) :
    t.StoreDivided := by
  have hempty (n : PatNo) (hn : isBuiltIn n = false) : t.entry n = Entry.empty := by
    rw [he, State.entry_reset_of_user hn]
  refine ⟨t.entriesInRange_iff.mpr fun n hn => by rw [hempty n hn]; trivial, t.coveredOnce_iff.mpr fun k => ?_, ?_⟩
  · have hnone : t.reservedCount k = 0 :=
      List.countP_eq_zero.mpr fun n hn => by rw [hempty n ((mem_userNumbers n).mp hn)]; nofun
    rw [hnone, hf]
    show 0 + coverCount [{ start := 0, length := 1024 }] k = if k < 1024 then 1 else 0
    rw [coverCount_cons]
    by_cases hk : k < 1024 <;> simp [coverCount, Extent.covers, hk]
  · rw [hf]
    exact freeListSound_cons.mpr ⟨by decide, nofun, by simp, .nil⟩

/-! ### The invariant -/

/-- The built-in entries stand and the Step Store is divided. -/
def State.LibrarySound (s : State) : Prop := s.BuiltInsStand ∧ s.StoreDivided

theorem State.LibrarySound.congr (h : s.LibrarySound) (hb : ∀ n, (t.entry n).body = (s.entry n).body)
    (hf : t.free = s.free) : t.LibrarySound :=
  ⟨fun n hn => (hb n).trans (h.1 n hn), h.2.congr (fun n _ => hb n) hf⟩

theorem State.BuiltInsStand.setEntry (h : s.BuiltInsStand) {n : PatNo} (hu : isBuiltIn n = false) (e : Entry) :
    (s.setEntry n e).BuiltInsStand := fun m hm => by
  rw [State.entry_setEntry, if_neg (by rintro rfl; rw [hu] at hm; cases hm)]
  exact h m hm

theorem State.LibrarySound.setBody (h : s.LibrarySound) {n : PatNo} (hu : isBuiltIn n = false) {e : Entry}
    (he : e.body.InRange) (hextent : e.extent = (s.entry n).extent) : (s.setEntry n e).LibrarySound :=
  ⟨h.1.setEntry hu e, h.2.setBody hu he hextent⟩

theorem State.LibrarySound.atom {w : Option SlotNo} (ht : Atom w s t) (h : s.LibrarySound) : t.LibrarySound := by
  have ⟨hstand, hdivided⟩ := h
  have hrange := (State.entriesInRange_iff s).mp hdivided.1
  cases ht with
  | damage _ n l hu hb =>
    exact h.setBody hu (by have := hrange n hu; rwa [hb] at this) (by rw [Entry.extent, Entry.extent, hb]; rfl)
  | disownReady _ n l hu hb =>
    exact h.setBody hu (by have := hrange n hu; rwa [hb] at this) (by rw [Entry.extent, Entry.extent, hb]; rfl)
  | disownDamaged _ n l hu hb =>
    exact h.setBody hu (by have := hrange n hu; rwa [hb] at this) (by rw [Entry.extent, Entry.extent, hb]; rfl)
  | discard _ _ n l hu hl =>
    refine ⟨State.BuiltInsStand.setEntry (fun m hm => ?_) (hu hstand) _, hdivided.discard (hu hstand) hl⟩
    rw [State.freeExtent_entry]
    exact hstand m hm
  | define _ p n length loopIndex pace start free hb hfit hl hl' hloop hp hp' =>
    have hu := hstand.user_of_ne_ready (n := n) (by rw [hb]; nofun)
    exact ⟨State.BuiltInsStand.setEntry (s := { s with free := free }) hstand hu _,
      hdivided.define hu hb hfit rfl ⟨rfl, hl, hl', hloop, hp, hp'⟩⟩
  | fill _ n l before after hb ha =>
    have hu := hstand.user_of_ne_ready (n := n) (by rw [hb]; nofun)
    have hbefore := hrange n hu
    rw [hb] at hbefore
    exact h.setBody hu ⟨hbefore.1, ha⟩ (by rw [Entry.extent, Entry.extent, hb]; rfl)
  | commit _ n l filled hb =>
    have hu := hstand.user_of_ne_ready (n := n) (by rw [hb]; nofun)
    have hbefore := hrange n hu
    rw [hb] at hbefore
    exact h.setBody hu hbefore.1 (by rw [Entry.extent, Entry.extent, hb]; rfl)
  | vacate _ i r => exact h.congr (s.body_vacate i · r) rfl
  | enroll _ i f => exact h.congr (s.body_enroll i · .internal f) rfl
  | reenroll _ i old f => exact h.congr (s.body_reenroll i · old f) rfl
  | toFallback _ i => exact h.congr (s.body_switchToFallback i) (by rw [State.switchToFallback_eq])
  | refit _ change => exact h.congr (fun n => by rw [State.entry_mapRecords]) (by rw [State.mapRecords_eq])
  | setPlay _ play => exact h.congr (fun n => by rw [State.entry_setPlay]) (s.setPlay_free play)
  | setLine _ _ line => exact h.congr (fun n => by rw [State.entry_setLine]) (s.setLine_free line)
  | write _ i x => exact h.congr (fun n => by rw [State.entry_setWord]) (by rw [State.setWord_eq])
  | _ => exact h.congr (fun _ => rfl) rfl

theorem State.LibrarySound.opens {c : Instr} (ht : Opens c s t) (h : s.LibrarySound) : t.LibrarySound := by
  cases ht with
  | powerOn =>
    rw [← State.poweredOn]
    exact ⟨fun n _ => by rw [s.entry_poweredOn], storeDivided_of_reset s.entry_poweredOn rfl⟩
  | pinReset =>
    rw [← State.pinned]
    exact ⟨fun n hn => by rw [s.entry_pinned, if_pos hn], h.2.pinned⟩
  | tick => exact h.congr (fun n => by rw [State.entry_advance]) s.advance_free
  | _ => exact h.congr (fun _ => rfl) rfl

theorem kept_librarySound : Kept State.LibrarySound where
  pending _ h := h
  atom := State.LibrarySound.atom
  opens := State.LibrarySound.opens
  remove _ h := h
  serves ht h := ht.keeps State.LibrarySound.atom (fun _ _ h => h)
    (fun line h => h.congr (fun n => by rw [State.entry_setLine]) (State.setLine_free _ line)) h
    (fun he _ _ _ _ _ => he ▸ h.congr (State.body_enroll _ _ · _ _) rfl)
    (fun he _ _ _ _ _ _ => he ▸ h.congr (State.body_reenroll _ _ · _ _) rfl)
  reply _ _ h := h

/-! ### The canonical form (R70) -/

/-- Only a write of a word changes the Step Store. -/
theorem Atom.store_cases {w : Option SlotNo} (ht : Atom w s t) :
    t.store = s.store ∨ ∃ i x, t.store = (s.setWord i x).store := by
  cases ht with
  | write _ i x => exact .inr ⟨i, x, rfl⟩
  | refit _ change => exact .inl (by rw [State.mapRecords_eq])
  | setPlay _ play => exact .inl (s.setPlay_store play)
  | setLine _ _ line => exact .inl (s.setLine_store line)
  | toFallback _ i => exact .inl (by rw [State.switchToFallback_eq])
  | discard _ _ n l => exact .inl (by rw [State.freeExtent_eq]; rfl)
  | _ => exact .inl rfl

/-- The Step Store is in canonical form. -/
def State.StoreCanonical (s : State) : Prop := s.store.wf = true

theorem State.StoreCanonical.atom {w : Option SlotNo} (ht : Atom w s t) (h : s.StoreCanonical) : t.StoreCanonical := by
  rcases ht.store_cases with he | ⟨i, x, he⟩ <;> rw [State.StoreCanonical, he]
  · exact h
  · exact s.setWord_wf i x h

theorem kept_storeCanonical : Kept State.StoreCanonical where
  pending _ h := h
  atom := State.StoreCanonical.atom
  opens ht h := by
    cases ht with
    | powerOn => rfl
    | pinReset => rw [← State.pinned, State.StoreCanonical, (State.pinned_same _).store]; exact h
    | tick => rw [State.StoreCanonical, State.advance_store]; exact h
    | _ => exact h
  remove _ h := h
  serves ht h := ht.keeps State.StoreCanonical.atom (fun _ _ h => h)
    (fun line h => by rw [State.StoreCanonical, State.setLine_store]; exact h) h
    (fun he _ _ _ _ _ => he ▸ h) (fun he _ _ _ _ _ _ => he ▸ h)
  reply _ _ h := h

end

/-- Settles O56: the extents that entries and the Free Extent List gain and lose are the same. -/
theorem stepKeepsStoreDivided : Obligations.StepKeepsStoreDivided :=
  ⟨fun _ _ hstand h ht => (kept_librarySound.step ht ⟨hstand, h⟩).2, fun _ _ h ht => kept_storeCanonical.step ht h⟩

end Sys2Proof.Machine
end


-- ==== Sys2Proof/Proofs/Settling.lean ====
section
/-! PROOF. A decision of the Output Arbiter settles the Play Context: whatever the records were, an owner stands and an
IDLE context leaves no record waiting (R35, R50); and where the directory is sound, what starts plays its record's own
pattern within its length, for at most 5040 ms (R49, R52). -/

namespace Sys2Proof.Machine

/-! ### The directory's soundness, which step loads rely on -/

/-- The reference counts are exact and the entries in range. -/
def State.PatternsSound (s : State) : Prop := s.CountsExact ∧ s.EntriesInRange

section
variable {s t : State}

theorem State.EntriesInRange.congr (h : s.EntriesInRange) (hb : ∀ n, (t.entry n).body = (s.entry n).body) :
    t.EntriesInRange :=
  t.entriesInRange_iff.mpr fun n hu => hb n ▸ (s.entriesInRange_iff.mp h) n hu

theorem State.EntriesInRange.setBody (h : s.EntriesInRange) {n : PatNo} {e : Entry}
    (he : isBuiltIn n = false → e.body.InRange) : (s.setEntry n e).EntriesInRange := by
  rw [State.entriesInRange_iff] at h ⊢
  intro m hm
  rw [State.entry_setEntry]
  split
  · rename_i hnm; subst hnm; exact he hm
  · exact h m hm

theorem State.EntriesInRange.atom {w : Option SlotNo} (ht : Atom w s t) (h : s.EntriesInRange) : t.EntriesInRange := by
  have hrange := s.entriesInRange_iff.mp h
  have hbody {n : PatNo} {b : EntryBody} (hu : isBuiltIn n = false) (hb : (s.entry n).body = b) : b.InRange :=
    hb ▸ hrange n hu
  cases ht with
  | damage _ n l _ hb => exact h.setBody fun hu => (by have := hbody hu hb; exact this)
  | disownReady _ n l _ hb => exact h.setBody fun hu => (by have := hbody hu hb; exact this)
  | disownDamaged _ n l _ hb => exact h.setBody fun hu => (by have := hbody hu hb; exact this)
  | discard _ _ n l => exact State.EntriesInRange.setBody (h.congr fun m => by rw [State.freeExtent_entry]) fun _ => trivial
  | define _ p n length loopIndex pace start free _ _ hl hl' hloop hp hp' =>
    exact State.EntriesInRange.setBody (s := { s with free := free }) h fun _ =>
      ⟨⟨rfl, hl, hl', hloop, hp, hp'⟩, Nat.zero_le _⟩
  | fill _ n l before after hb ha => exact h.setBody fun hu => ⟨(hbody hu hb).1, ha⟩
  | commit _ n l filled hb => exact h.setBody fun hu => (hbody hu hb).1
  | vacate _ i r => exact h.congr (s.body_vacate i · r)
  | enroll _ i f => exact h.congr (s.body_enroll i · .internal f)
  | reenroll _ i old f => exact h.congr (s.body_reenroll i · old f)
  | toFallback _ i => exact h.congr (s.body_switchToFallback i)
  | refit _ change => exact h.congr fun n => by rw [State.entry_mapRecords]
  | setPlay _ play => exact h.congr fun n => by rw [State.entry_setPlay]
  | setLine _ _ line => exact h.congr fun n => by rw [State.entry_setLine]
  | write _ i x => exact h.congr fun n => by rw [State.entry_setWord]
  | _ => exact h

theorem State.PatternsSound.atom {w : Option SlotNo} (ht : Atom w s t) (h : s.PatternsSound) : t.PatternsSound :=
  ⟨h.1.atom ht, h.2.atom ht⟩

theorem State.PatternsSound.acts (h : s.PatternsSound) (ht : Acts s t) : t.PatternsSound :=
  ht.keeps State.PatternsSound.atom h

theorem State.PatternsSound.quiets (h : s.PatternsSound) (ht : Quiets s t) : t.PatternsSound := h.acts (Quiets.acts ht)

theorem State.PatternsSound.congr (h : s.PatternsSound) (hs : t.slots = s.slots) (hd : t.directory = s.directory) :
    t.PatternsSound := by
  have hentry (n : PatNo) : t.entry n = s.entry n := by rw [State.entry, hd]; rfl
  refine ⟨State.CountsExact.congr h.1 (fun i n => ?_) hentry, h.2.congr fun n => by rw [hentry]⟩
  rw [State.names, State.record_congr hs]; rfl

/-- A READY entry of a sound directory has a loop index below its length and a pace of at most 8 (Table 4.1). -/
theorem State.PatternsSound.ready (h : s.PatternsSound) {n : PatNo} {l : Layout} (hb : (s.entry n).body = .ready l) :
    l.loopIndex < l.length ∧ l.pace ≤ 8 := by
  cases hu : isBuiltIn n with
  | false =>
    have hrange := s.entriesInRange_iff.mp h.2 n hu
    rw [hb] at hrange
    obtain ⟨-, -, -, hloop, -, hpace⟩ := hrange
    exact ⟨hloop, hpace⟩
  | true =>
    obtain ⟨pace, -, hpace, hlength, he⟩ := h.1.2.2.entry hu
    rw [hb] at he
    cases he
    exact ⟨hlength, by dsimp only; omega⟩

end

/-! ### The owner and its step -/

/-- The record of a slot plays its own pattern, at a step below its length (Table 3.1). -/
def State.Plays (s : State) (i : SlotNo) (now : Sounding) : Prop :=
  ∃ r, s.record i = some r ∧ r.pattern = now.pattern ∧ now.index < s.patternLength now.pattern

section
variable {s : State}

theorem State.lt_patternLength_iff {n : PatNo} {index : Nat} :
    index < s.patternLength n ↔ ∃ l, (s.entry n).body.layout = some l ∧ index < l.length := by
  unfold State.patternLength
  cases (s.entry n).body.layout <;> simp

theorem State.playSound_iff :
    s.PlaySound ↔ (∀ owner now, s.play = .playing owner now → s.Plays owner.slot now) ∧
      ∀ now, s.play.now = some now → now.timeLeft ≤ 5040 := by
  refine and_congr_left fun _ => forall_congr' fun owner => forall_congr' fun now => imp_congr_right fun _ => ?_
  constructor
  · rintro ⟨r, l, hr, hp, hl, hlt⟩
    exact ⟨r, hr, hp, s.lt_patternLength_iff.mpr ⟨l, hl, hlt⟩⟩
  · rintro ⟨r, hr, hp, hlt⟩
    obtain ⟨l, hl, hlt⟩ := s.lt_patternLength_iff.mp hlt
    exact ⟨r, l, hr, hp, hl, hlt⟩

theorem State.playSound_of_idle (h : s.play = .idle) : s.PlaySound :=
  ⟨fun _ _ hp => (nomatch h.symm.trans hp), fun now hp => (by rw [h] at hp; cases hp)⟩

theorem State.playSound_of_playing {owner : Handle} {now : Sounding} (h : s.play = .playing owner now)
    (hplays : s.Plays owner.slot now) (htime : now.timeLeft ≤ 5040) : s.PlaySound := by
  refine s.playSound_iff.mpr ⟨fun o n hp => ?_, fun n hp => ?_⟩ <;> rw [h] at hp <;> cases hp
  · exact hplays
  · exact htime

/-- The sounder has what it should: an owner stands, and an IDLE context leaves no record waiting (R35, R50). -/
def State.Settled (s : State) : Prop := s.OwnerStands ∧ s.IdleSilent

theorem State.settled_of_playing {owner : Handle} {now : Sounding} (h : s.play = .playing owner now)
    (hstands : s.ownerStands owner = true) : s.Settled :=
  ⟨fun o n hp => (by rw [h] at hp; cases hp; exact hstands), fun hp => (nomatch h.symm.trans hp)⟩

theorem State.settled_of_tail {now : Sounding} (h : s.play = .tail now) : s.Settled :=
  ⟨fun _ _ hp => (nomatch h.symm.trans hp), fun hp => (nomatch h.symm.trans hp)⟩

theorem State.settled_of_silent (h : s.play = .idle) (ho : s.order = []) : s.Settled :=
  ⟨fun _ _ hp => (nomatch h.symm.trans hp), fun _ => ho⟩

theorem State.ownerStands_handleOf (i : SlotNo) : s.ownerStands (s.handleOf i) = s.eligible i := by
  simp [State.ownerStands, State.handleOf]

theorem State.ownerStands_iff (owner : Handle) :
    s.ownerStands owner = true ↔ (s.slot owner.slot).generation = owner.generation ∧ s.eligible owner.slot = true := by
  simp [State.ownerStands]

theorem State.eligible_of_mem_order {i : SlotNo} (h : i ∈ s.order) : s.eligible i = true := by
  rw [s.order_eq_rankAll, mem_rankAll] at h
  exact (List.mem_filter.mp h).2

theorem State.eligible_of_head {i : SlotNo} (h : s.head = some i) : s.eligible i = true :=
  State.eligible_of_mem_order (List.mem_of_head? h)

theorem State.order_of_head_none (h : s.head = none) : s.order = [] := List.head?_eq_none_iff.mp h

end

/-! ### A step load -/

section
variable {s : State}

/-- An internal raise leaves the slot of an ALERTING record alone (R21). -/
theorem State.slot_internalRaise {i j : SlotNo} {r : Record} {f : RaiseFields} (hr : s.record i = some r)
    (ha : r.state = .alerting) : (s.internalRaise j f).1.slot i = s.slot i := by
  rcases s.internalRaise_cases j f with ⟨hj, he⟩ | ⟨q, hj, hq, he⟩ | ⟨q, hj, hq, he⟩ <;> rw [he]
  · have hij : j ≠ i := by rintro rfl; rw [hr] at hj; cases hj
    rw [State.createRecord_eq_enroll]
    exact (s.slot_enroll j i .internal f).trans (if_neg hij)
  · have hij : j ≠ i := by rintro rfl; rw [hr] at hj; cases hj; exact hq ha
    rw [State.realertRecord_eq_reenroll]
    exact (s.slot_reenroll j i q f).trans (if_neg hij)

theorem State.slot_markDamaged {i : SlotNo} {n : PatNo} {r : Record} {source : Source} (hr : s.record i = some r)
    (ha : r.state = .alerting) : (s.markDamaged n source).1.slot i = s.slot i := by
  unfold State.markDamaged
  split
  · dsimp only
    split
    · exact State.slot_internalRaise (s := State.post _ _) hr ha
    · rfl
  · rfl

/-- The record of the slot after the fall back to pattern 28 (R65, R66). -/
theorem State.slot_fallBack (i : SlotNo) {r : Record} (hr : s.record i = some r) :
    (s.fallBack i).slot i =
      { s.slot i with record := some { r with pattern := fallback, introDone := false } } := by
  show (State.setPlay _ _).slot i = _
  rw [State.slot_setPlay, State.slot_switchToFallback, if_pos rfl, hr]
  rfl

/-- The Play Context after the fall back: step 0 of pattern 28, 500 ms (Tables 3.5 and 3.6). -/
theorem State.play_fallBack (i : SlotNo) :
    (s.fallBack i).play = .playing (s.handleOf i)
      { pattern := fallback, index := 0, timeLeft := 500, tone := 12, level := 3 } := by
  have hhandle : (s.switchToFallback i).handleOf i = s.handleOf i := by
    simp only [State.handleOf, State.slot_switchToFallback, if_true]
  show (State.setPlay _ _).play = _
  rw [State.setPlay_play, hhandle]
  rfl

theorem State.fallBack_settled {i : SlotNo} (he : s.eligible i = true) :
    (s.fallBack i).Settled ∧ (s.PatternsSound → (s.fallBack i).PlaySound) := by
  obtain ⟨r, hr, ha, hm, hd⟩ := (s.eligible_iff i).mp he
  have hslot := State.slot_fallBack i hr
  have hrecord : (s.fallBack i).record i = some { r with pattern := fallback, introDone := false } := by
    rw [State.record, hslot]
  refine ⟨State.settled_of_playing (s.play_fallBack i) ?_, fun h => ?_⟩
  · rw [State.ownerStands_iff]
    exact ⟨(congrArg Slot.generation hslot).trans rfl, (State.eligible_iff _ i).mpr ⟨_, hrecord, ha, hm, hd⟩⟩
  · refine State.playSound_of_playing (s.play_fallBack i) ⟨_, hrecord, rfl, ?_⟩ (by decide)
    have hafter := h.quiets (quiets_fallBack s i)
    obtain ⟨pace, -, -, hlength, hbody⟩ := hafter.1.2.2.entry (n := fallback) rfl
    exact State.lt_patternLength_iff.mpr ⟨_, (congrArg EntryBody.layout hbody : _ = some _), hlength⟩

/-- The load of an owner's step settles the context: the owner is an eligible record, and plays its own pattern within
its length where the index given is (R53, R65, R66). -/
theorem State.loadOwner_settled {i : SlotNo} (he : s.eligible i = true) (index : Nat) :
    (s.loadOwner i index).1.Settled ∧
      (s.PatternsSound →
        (∀ r l, s.record i = some r → (s.entry r.pattern).body = .ready l → index < l.length) →
          (s.loadOwner i index).1.PlaySound) := by
  obtain ⟨r, hr, ha, -⟩ := (s.eligible_iff i).mp he
  unfold State.loadOwner
  rw [hr]
  dsimp only
  split
  · rename_i st pace hload
    have hplay := s.setPlay_play (.playing (s.handleOf i)
      { pattern := r.pattern, index := index, timeLeft := st.duration pace, tone := st.tone, level := st.level })
    refine ⟨State.settled_of_playing hplay ?_, fun h hindex => ?_⟩
    · show State.ownerStands (s.setPlay _) _ = true
      rw [State.ownerStands_congr (s.setPlay_slots _), State.ownerStands_handleOf]
      exact he
    · obtain ⟨l, hl, hpace⟩ : ∃ l, (s.entry r.pattern).body = .ready l ∧ pace = l.pace := by
        unfold State.loadStep at hload
        split at hload
        · rename_i l hl
          refine ⟨l, hl, ?_⟩
          split at hload
          · cases hload; rfl
          · dsimp only at hload
            split at hload <;> cases hload
            rfl
        · cases hload
      refine State.playSound_of_playing hplay ⟨r, ?_, rfl, ?_⟩ ?_
      · rw [State.sound, State.record_setPlay]; exact hr
      · refine State.lt_patternLength_iff.mpr ⟨l, ?_, hindex r l rfl hl⟩
        rw [State.sound, State.entry_setPlay, hl]
        rfl
      · have hle := (h.ready hl).2
        have hunits : st.units.toNat ≤ 63 := Nat.le_of_lt_succ st.units.isLt
        calc st.units.toNat * 10 * pace ≤ 63 * 10 * 8 :=
              Nat.mul_le_mul (Nat.mul_le_mul_right 10 hunits) (hpace ▸ hle)
          _ ≤ 5040 := Nat.le_refl _
  · obtain ⟨hsettled, hsound⟩ := State.fallBack_settled he
    exact ⟨hsettled, fun h _ => hsound h⟩
  · rename_i hload
    have hslot := State.slot_markDamaged (n := r.pattern) (source := .internal) hr ha
    have hmarked : (s.markDamaged r.pattern .internal).1.eligible i = true := by
      rw [State.eligible, State.record, hslot]; exact he
    obtain ⟨hsettled, hsound⟩ := State.fallBack_settled hmarked
    exact ⟨hsettled, fun h _ => hsound (h.quiets (quiets_markDamaged s (State.loadStep_badParity hload).1 _))⟩

end

/-! ### Starts -/

section
variable {s : State}

theorem State.PatternsSound.startIndex_lt (h : s.PatternsSound) {r : Record} {l : Layout}
    (hb : (s.entry r.pattern).body = .ready l) : s.startIndex r < l.length := by
  have hloop := (h.ready hb).1
  unfold State.startIndex
  rw [hb]
  split
  · exact hloop
  · omega

theorem State.startOnce_settled (hi : s.play = .idle) :
    s.startOnce.1.Settled ∧ (s.PatternsSound → s.startOnce.1.PlaySound) := by
  unfold State.startOnce
  split
  · rename_i hnone
    exact ⟨State.settled_of_silent hi (State.order_of_head_none hnone), fun _ => State.playSound_of_idle hi⟩
  · rename_i i hhead
    have he := State.eligible_of_head hhead
    obtain ⟨r, hr, -⟩ := (s.eligible_iff i).mp he
    obtain ⟨hsettled, hsound⟩ := State.loadOwner_settled he (s.startIndex r)
    unfold State.beginTenure
    rw [hr]
    exact ⟨hsettled, fun h => hsound h fun q l hq hl => by rw [hr] at hq; cases hq; exact h.startIndex_lt hl⟩

theorem State.cut_play : s.cut.play = .idle := s.setPlay_play .idle

theorem State.PatternsSound.cut (h : s.PatternsSound) : s.cut.PatternsSound := h.quiets (quiets_cut s)

theorem State.afterLoad_settled {loaded : State × Bool} (h : loaded.1.Settled) :
    (State.afterLoad loaded).Settled ∧
      (loaded.1.PatternsSound → loaded.1.PlaySound → (State.afterLoad loaded).PlaySound) := by
  unfold State.afterLoad
  split
  · split
    · obtain ⟨hsettled, hsound⟩ := State.startOnce_settled (s := loaded.1.cut) State.cut_play
      exact ⟨hsettled, fun hp _ => hsound hp.cut⟩
    · exact ⟨h, fun _ hplay => hplay⟩
  · exact ⟨h, fun _ hplay => hplay⟩

theorem State.startHead_settled (hi : s.play = .idle) :
    s.startHead.Settled ∧ (s.PatternsSound → s.startHead.PlaySound) := by
  obtain ⟨hsettled, hsound⟩ := State.startOnce_settled hi
  obtain ⟨hsettled', hsound'⟩ := State.afterLoad_settled hsettled
  exact ⟨hsettled', fun h => hsound' (h.quiets (quiets_startOnce s)) (hsound h)⟩

theorem State.cutStart_settled (s : State) : s.cut.startHead.Settled ∧ (s.PatternsSound → s.cut.startHead.PlaySound) := by
  obtain ⟨hsettled, hsound⟩ := State.startHead_settled (s := s.cut) State.cut_play
  exact ⟨hsettled, fun h => hsound h.cut⟩

/-! ### The decision -/

/-- An owner that still stands plays its own pattern, and the time left is in range. -/
def State.PlaysWhereStanding (s : State) : Prop :=
  (∀ owner now, s.play = .playing owner now → s.ownerStands owner = true → s.Plays owner.slot now) ∧
    ∀ now, s.play.now = some now → now.timeLeft ≤ 5040

theorem State.arbitrateTail_settled {now : Sounding} (ht : s.play = .tail now) :
    s.arbitrateTail.Settled ∧ (s.PatternsSound → now.timeLeft ≤ 5040 → s.arbitrateTail.PlaySound) := by
  unfold State.arbitrateTail
  split
  · exact ⟨s.cutStart_settled.1, fun h _ => s.cutStart_settled.2 h⟩
  · refine ⟨State.settled_of_tail ht, fun _ htime => ⟨fun _ _ hp => (nomatch ht.symm.trans hp), fun n hp => ?_⟩⟩
    rw [ht] at hp
    cases hp
    exact htime

/-- A decision settles the context, whatever the records were before it (R35 to R42). -/
theorem State.arbitrate_settled (s : State) (leaving : Leaving) :
    (s.arbitrate leaving).Settled ∧
      (s.PatternsSound → s.PlaysWhereStanding → (s.arbitrate leaving).PlaySound) := by
  have hcut : s.cut.startHead.Settled ∧
      (s.PatternsSound → s.PlaysWhereStanding → s.cut.startHead.PlaySound) :=
    ⟨s.cutStart_settled.1, fun h _ => s.cutStart_settled.2 h⟩
  unfold State.arbitrate
  split
  · rename_i hi
    exact ⟨(State.startHead_settled hi).1, fun h _ => (State.startHead_settled hi).2 h⟩
  · rename_i owner now hp
    split
    · rename_i hstands
      split
      · exact hcut
      · refine ⟨State.settled_of_playing hp hstands, fun _ hplays => ?_⟩
        exact State.playSound_of_playing hp (hplays.1 owner now hp hstands) (hplays.2 now (by rw [hp]; rfl))
    · split
      · exact hcut
      · have hrelease : s.release = s.setPlay (.tail now) := by simp only [State.release, hp]
        have htail : s.release.play = .tail now := by rw [hrelease, State.setPlay_play]
        obtain ⟨hsettled, hsound⟩ := State.arbitrateTail_settled htail
        exact ⟨hsettled, fun h hplays => hsound (h.quiets (quiets_release s)) (hplays.2 now (by rw [hp]; rfl))⟩
  · rename_i now hp
    obtain ⟨hsettled, hsound⟩ := State.arbitrateTail_settled hp
    exact ⟨hsettled, fun h hplays => hsound h (hplays.2 now (by rw [hp]; rfl))⟩

end

end Sys2Proof.Machine
end


-- ==== Sys2Proof/Proofs/SoundChanges.lean ====
section
/-! PROOF. The changes that commands are made of, by what the Play Context has to do with them: those it does not depend
on, those that only silence or remove records, and those after which one eligible before and after is the same record on
the same pattern. A command's changes of records end in a decision, or in a silence action's hush. -/

namespace Sys2Proof.Machine

/-! ### Changes that sound does not depend on -/

/-- From s to t nothing has changed that the Play Context depends on. -/
structure State.StillAs (s t : State) : Prop where
  play : t.play = s.play
  generation : ∀ i, (t.slot i).generation = (s.slot i).generation
  eligible : ∀ i, t.eligible i = s.eligible i
  pattern : ∀ i, (t.record i).map Record.pattern = (s.record i).map Record.pattern
  order : t.order = s.order
  length : s.PatternsSound → ∀ i, ∀ r ∈ s.record i, t.patternLength r.pattern = s.patternLength r.pattern
  sound : s.PatternsSound → t.PatternsSound

section
variable {s t u : State}

theorem State.patternLength_congr {n : PatNo} (h : (t.entry n).body = (s.entry n).body) :
    t.patternLength n = s.patternLength n := by
  rw [State.patternLength, h]; rfl

theorem State.StillAs.refl (s : State) : s.StillAs s :=
  ⟨rfl, fun _ => rfl, fun _ => rfl, fun _ => rfl, rfl, fun _ _ _ _ => rfl, id⟩

/-- What leaves the records, the Arrival List and the Play Context alone. -/
theorem State.StillAs.of_slots (hp : t.play = s.play) (hs : t.slots = s.slots) (ha : t.arrival = s.arrival)
    (hl : s.PatternsSound → ∀ i, ∀ r ∈ s.record i, t.patternLength r.pattern = s.patternLength r.pattern)
    (hsound : s.PatternsSound → t.PatternsSound) : s.StillAs t :=
  ⟨hp, fun i => congrArg Slot.generation (State.slot_congr hs i), fun i => congrFun (State.eligible_congr hs) i,
    fun i => congrArg _ (State.record_congr hs i), State.order_congr hs ha, hl, hsound⟩

/-- What leaves the directory alone too. -/
theorem State.StillAs.of_eq (hp : t.play = s.play) (hs : t.slots = s.slots) (ha : t.arrival = s.arrival)
    (hd : t.directory = s.directory) : s.StillAs t :=
  .of_slots hp hs ha (fun _ _ _ _ => State.patternLength_congr (by rw [State.entry, hd]; rfl))
    fun h => h.congr hs hd

theorem State.StillAs.trans (h : s.StillAs t) (h' : t.StillAs u) : s.StillAs u where
  play := h'.play.trans h.play
  generation i := (h'.generation i).trans (h.generation i)
  eligible i := (h'.eligible i).trans (h.eligible i)
  pattern i := (h'.pattern i).trans (h.pattern i)
  order := h'.order.trans h.order
  length hs i r hr := by
    have hsame := h.pattern i
    rw [Option.mem_def.mp hr] at hsame
    obtain ⟨q, hq, hpattern⟩ := Option.map_eq_some_iff.mp hsame
    rw [← h.length hs i r hr, ← hpattern]
    exact h'.length (h.sound hs) i q hq
  sound hs := h'.sound (h.sound hs)

theorem State.StillAs.setPort (s : State) (p : Port) (x : PortState) : s.StillAs (s.setPort p x) := .of_eq rfl rfl rfl rfl

theorem State.StillAs.post (s : State) (e : Event) : s.StillAs (s.post e) := .of_eq rfl rfl rfl rfl

theorem State.StillAs.setLine (s : State) (line : Line) : s.StillAs (s.setLine line) := by
  rw [State.setLine_eq]; exact .of_eq rfl rfl rfl rfl

theorem State.StillAs.setWord (s : State) (i : Nat) (w : StepWord) : s.StillAs (s.setWord i w) := by
  rw [State.setWord_eq]; exact .of_eq rfl rfl rfl rfl

/-- A change of every record that keeps its eligibility, its priority and its pattern. -/
theorem State.StillAs.mapRecords (s : State) {change : Record → Record} (hc : Refits change)
    (hm : ∀ r, (change r).muted = r.muted) : s.StillAs (s.mapRecords change) := by
  have hsame (r : Record) : (change r).eligible = r.eligible ∧ (change r).current = r.current ∧
      (change r).pattern = r.pattern := by
    have hmuted := hm r
    obtain ⟨raiser, muted, -, hr⟩ := hc r
    rw [hr] at hmuted ⊢
    exact ⟨by rw [Record.eligible, Record.eligible, hmuted]; rfl, rfl, rfl⟩
  have heligible : (s.mapRecords change).eligible = s.eligible := by
    funext i
    rw [State.eligible, State.record_mapRecords, State.eligible]
    cases s.record i with
    | none => rfl
    | some r => exact (hsame r).1
  have hpriority : (s.mapRecords change).priority = s.priority := by
    funext i
    rw [State.priority, State.record_mapRecords, State.priority]
    cases s.record i with
    | none => rfl
    | some r => exact (hsame r).2.1
  refine ⟨by rw [State.mapRecords_eq], fun i => by rw [State.slot_mapRecords], congrFun heligible, fun i => ?_, ?_,
    fun _ i r _ => State.patternLength_congr (by rw [State.entry_mapRecords]),
    fun h => h.quiets (Atom.refit s change hc).quiets⟩
  · rw [State.record_mapRecords]
    cases s.record i with
    | none => rfl
    | some r => exact congrArg some (hsame r).2.2
  · rw [State.order_eq_rankAll, State.order_eq_rankAll, heligible, hpriority, State.mapRecords_eq]

theorem Record.muted_setOrphaned (r : Record) (p : Port) (orphaned : Bool) :
    (r.setOrphaned p orphaned).muted = r.muted := by
  unfold Record.setOrphaned
  split
  · split <;> rfl
  · rfl

theorem State.StillAs.setOrphans (s : State) (p : Port) (orphaned : Bool) : s.StillAs (s.setOrphans p orphaned) :=
  .mapRecords s (refits_setOrphaned p orphaned) fun r => r.muted_setOrphaned p orphaned

/-- An entry that no record names, or that keeps its length, is changed without a sound of it. -/
theorem State.StillAs.setEntry {n : PatNo} {e : Entry} {free : List Extent}
    (hl : s.PatternsSound → (∀ i, ∀ r ∈ s.record i, r.pattern ≠ n) ∨
      e.body.layout.map Layout.length = (s.entry n).body.layout.map Layout.length)
    (hsound : s.PatternsSound → (State.setEntry { s with free := free } n e).PatternsSound) :
    s.StillAs (State.setEntry { s with free := free } n e) := by
  refine .of_slots rfl rfl rfl (fun hc i r hr => ?_) hsound
  have hentry : (State.setEntry { s with free := free } n e).entry r.pattern =
      if n = r.pattern then e else s.entry r.pattern := State.entry_setEntry _ n _ e
  rw [State.patternLength, hentry, State.patternLength]
  split
  · rename_i hn
    rcases hl hc with hnone | hsame
    · exact absurd hn.symm (hnone i r hr)
    · rw [hsame, hn]
  · rfl

/-- An entry that is EMPTY or LOADING, or without a reference, is named by no record (R83, R84). -/
theorem State.CountsExact.unnamed (h : s.CountsExact) {n : PatNo}
    (hn : (s.entry n).refs = 0 ∨ (s.entry n).body.nameable = false) : ∀ i, ∀ r ∈ s.record i, r.pattern ≠ n :=
  (State.namers_eq_zero_iff n).mp (h.namers_eq_zero hn)

/-- The discard of an entry that no record names (R80, R88, R89). -/
theorem State.StillAs.dropPattern (s : State) {n : PatNo} {l : Layout} (source : Source)
    (hrefs : (s.entry n).refs = 0 ∨ (s.entry n).body.nameable = false)
    (hsound : s.PatternsSound → ((s.freeExtent l).setEntry n Entry.empty).PatternsSound) :
    s.StillAs (s.dropPattern n l source) := by
  have hdrop : s.StillAs ((s.freeExtent l).setEntry n Entry.empty) := by
    rw [State.freeExtent_eq] at hsound ⊢
    exact .setEntry (fun hc => .inl (hc.1.unnamed hrefs)) hsound
  exact ⟨hdrop.play, hdrop.generation, hdrop.eligible, hdrop.pattern, hdrop.order, hdrop.length,
    fun h => (State.StillAs.post _ _).sound (hdrop.sound h)⟩

theorem State.StillAs.leaveEntry (s : State) (p : Port) (closing : Bool) {n : PatNo} (hu : isBuiltIn n = false) :
    s.StillAs (s.leaveEntry p closing n) := by
  have hsound {e : Entry} (ha : Atom none s (s.setEntry n e)) (h : s.PatternsSound) : (s.setEntry n e).PatternsSound :=
    h.atom ha
  unfold State.leaveEntry
  split
  · rename_i l fill hb
    have hname : (s.entry n).body.nameable = false := by rw [hb]; rfl
    split
    · exact .dropPattern s _ (.inr hname) fun h => h.atom
        (Atom.discard none s n l (fun _ => hu) (by rw [hb]; rfl) (.inr hname) (.inr (.inl (by rw [hb]; rfl))))
    · exact .refl s
  · rename_i l hb
    split
    · exact .setEntry (free := s.free) (fun _ => .inr (by rw [hb]; rfl)) (hsound (Atom.disownReady s n l hu hb))
    · exact .refl s
  · rename_i l hb
    split
    · exact .setEntry (free := s.free) (fun _ => .inr (by rw [hb]; rfl)) (hsound (Atom.disownDamaged s n l hu hb))
    · exact .refl s
  · exact .refl s

theorem State.StillAs.leaveEntries (s : State) (p : Port) (closing : Bool) : s.StillAs (s.leaveEntries p closing) := by
  have hfold : ∀ (l : List PatNo) (t : State), (∀ n ∈ l, isBuiltIn n = false) →
      t.StillAs (l.foldl (fun t n => t.leaveEntry p closing n) t) := by
    intro l
    induction l with
    | nil => exact fun t _ => .refl t
    | cons n l ih =>
      intro t hl
      rw [List.forall_mem_cons] at hl
      exact (State.StillAs.leaveEntry t p closing hl.1).trans (ih _ hl.2)
  exact hfold userNumbers s fun n hn => (mem_userNumbers n).mp hn

end

/-! ### Changes of records before a decision -/

/-- From s to u records have changed: one eligible before and after is the same record on the same pattern. -/
structure State.Alters (s u : State) : Prop where
  play : u.play = s.play
  kept : ∀ i, s.eligible i = true → u.eligible i = true →
    (u.slot i).generation = (s.slot i).generation ∧
      (u.record i).map Record.pattern = (s.record i).map Record.pattern
  length : s.PatternsSound → ∀ i, ∀ r ∈ s.record i, u.patternLength r.pattern = s.patternLength r.pattern
  sound : s.PatternsSound → u.PatternsSound

/-- From s to u records have been silenced, freed or left: one eligible after was so before, on the same pattern. -/
structure State.Calms (s u : State) : Prop where
  play : u.play = s.play
  kept : ∀ i, u.eligible i = true →
    s.eligible i = true ∧ (u.slot i).generation = (s.slot i).generation ∧
      (u.record i).map Record.pattern = (s.record i).map Record.pattern
  body : ∀ n, (u.entry n).body = (s.entry n).body
  quiets : Quiets s u

section
variable {s t u : State}

theorem State.Calms.refl (s : State) : s.Calms s := ⟨rfl, fun _ h => ⟨h, rfl, rfl⟩, fun _ => rfl, .refl⟩

theorem State.Calms.trans (h : s.Calms t) (h' : t.Calms u) : s.Calms u where
  play := h'.play.trans h.play
  kept i hu := by
    obtain ⟨ht, hgen, hpat⟩ := h'.kept i hu
    obtain ⟨hs, hgen', hpat'⟩ := h.kept i ht
    exact ⟨hs, hgen.trans hgen', hpat.trans hpat'⟩
  body n := (h'.body n).trans (h.body n)
  quiets := h.quiets.trans h'.quiets

theorem State.Calms.alters (h : s.Calms u) : s.Alters u where
  play := h.play
  kept i _ hu := (h.kept i hu).2
  length _ _ _ _ := State.patternLength_congr (h.body _)
  sound hs := hs.quiets h.quiets

theorem State.Calms.post (h : s.Calms u) {e : Event} (he : e.isOverrun = false) : s.Calms (u.post e) :=
  ⟨h.play, h.kept, h.body, h.quiets.tail (Atom.post u e he)⟩

theorem State.Alters.post (h : s.Alters u) (e : Event) : s.Alters (u.post e) :=
  ⟨h.play, h.kept, h.length, fun hs => (State.StillAs.post u e).sound (h.sound hs)⟩

/-- A change that left the sound as it was, before one of records. -/
theorem State.StillAs.alters (h : s.StillAs t) (h' : t.Alters u) : s.Alters u where
  play := h'.play.trans h.play
  kept i hs hu := by
    obtain ⟨hgen, hpat⟩ := h'.kept i (by rw [h.eligible, hs]) hu
    exact ⟨hgen.trans (h.generation i), hpat.trans (h.pattern i)⟩
  length hs i r hr := by
    have hsame := h.pattern i
    rw [Option.mem_def.mp hr] at hsame
    obtain ⟨q, hq, hpattern⟩ := Option.map_eq_some_iff.mp hsame
    rw [← h.length hs i r hr, ← hpattern]
    exact h'.length (h.sound hs) i q hq
  sound hs := h'.sound (h.sound hs)

/-- One record replaced by one that is not eligible. -/
theorem State.Calms.setRecord {i : SlotNo} {r r' : Record} (hr : s.record i = some r) (ha : r.Amends r')
    (he : r'.eligible = false) : s.Calms (s.setRecord i r') where
  play := rfl
  kept j hj := by
    by_cases hij : i = j
    · subst hij
      rw [State.eligible, State.record_setRecord, if_pos rfl] at hj
      exact absurd hj (by simp [he])
    · have hslot : (s.setRecord i r').slot j = s.slot j := by rw [State.slot_setRecord, if_neg hij]
      rw [State.eligible, State.record, hslot] at hj
      exact ⟨hj, by rw [hslot], by rw [State.record, hslot]; rfl⟩
  body _ := rfl
  quiets := (Atom.amend s i r r' hr ha).quiets

theorem State.Calms.returnRecord {i : SlotNo} {r : Record} (hr : s.record i = some r) (ha : r.state = .alerting)
    (source : Source) : s.Calms (s.returnRecord i r source) := by
  rw [State.returnRecord_eq]
  exact (State.Calms.setRecord hr (r.amends_silenced .returned r.muted nofun ha)
    (by simp [Record.eligible, Record.isAlerting])).post rfl

theorem State.Calms.freeRecord (s : State) (i : SlotNo) (source : Source) : s.Calms (s.freeRecord i source) := by
  cases hr : s.record i with
  | none => rw [State.freeRecord_free s i source hr]; exact .refl s
  | some r =>
    have hquiets := quiets_freeRecord s i source
    rw [State.freeRecord_eq_vacate hr] at hquiets ⊢
    refine ⟨rfl, fun j hj => ?_, fun n => State.body_vacate _ i n r, hquiets⟩
    rw [State.eligible, State.record_vacate] at hj
    split at hj
    · cases hj
    · rename_i hij
      refine ⟨hj, ?_, ?_⟩
      · rw [State.slot_vacate, if_neg hij]; rfl
      · rw [State.record_vacate, if_neg hij]; rfl

theorem State.Calms.acknowledge (s : State) (i : SlotNo) (who : AckParty) : s.Calms (s.acknowledge i who) := by
  cases hr : s.record i with
  | none => simp only [State.acknowledge, hr]; exact .refl s
  | some r =>
    rw [State.acknowledge_eq s i r who hr]
    split
    · rename_i ha
      exact (State.Calms.setRecord hr (r.amends_silenced (.acknowledged who) false nofun ha)
        (by simp [Record.eligible, Record.isAlerting])).post rfl
    · exact .freeRecord s i _
    · exact .refl s

theorem State.Calms.clearRecord (s : State) (i : SlotNo) (source : Source) : s.Calms (s.clearRecord i source) := by
  unfold State.clearRecord
  split
  · exact .refl s
  · rename_i r hr
    split
    · rename_i ha
      split
      · exact .returnRecord hr ha source
      · exact .freeRecord s i source
    · exact .freeRecord s i source
    · exact .refl s

theorem State.Calms.closeRecord (s : State) (p : Port) (i : SlotNo) : s.Calms (s.closeRecord p i) := by
  unfold State.closeRecord
  split
  · exact .refl s
  · rename_i r hr
    split
    · exact .refl s
    · split
      · exact .freeRecord s i _
      · split
        · rename_i ha; exact .returnRecord hr ha _
        · exact .freeRecord s i _
        · exact .refl s

theorem State.Calms.foldl {op : State → SlotNo → State} (h : ∀ t i, State.Calms t (op t i)) (l : List SlotNo)
    (s : State) : s.Calms (l.foldl op s) := by
  induction l generalizing s with
  | nil => exact .refl s
  | cons i l ih => exact (h s i).trans (ih _)

theorem State.Calms.acknowledgeAll (s : State) (who : AckParty) : s.Calms (s.acknowledgeAll who) :=
  .foldl (fun t i => .acknowledge t i who) s.arrival s

theorem State.Calms.closeRecords (s : State) (p : Port) : s.Calms (s.closeRecords p) :=
  .foldl (fun t i => .closeRecord t p i) s.arrival s

theorem State.Calms.internalReturn (s : State) (i : SlotNo) : s.Calms (s.internalReturn i).1 := by
  rcases s.internalReturn_cases i with ⟨hr, he⟩ | ⟨r, hr, hst, he⟩ | ⟨r, who, hr, hst, he⟩ | ⟨r, hr, hst, he⟩ <;> rw [he]
  · exact .refl s
  · exact .returnRecord hr hst _
  · exact .freeRecord s i _
  · exact .refl s

/-- A record that was not eligible replaced by another, or a new one (R5, R7, R21). -/
theorem State.Alters.of_slot {i : SlotNo} (hi : s.eligible i = false) (hplay : u.play = s.play)
    (hslot : ∀ j, i ≠ j → u.slot j = s.slot j) (hbody : ∀ n, (u.entry n).body = (s.entry n).body)
    (hsound : s.PatternsSound → u.PatternsSound) : s.Alters u where
  play := hplay
  kept j hj _ := by
    have hij : i ≠ j := by rintro rfl; rw [hi] at hj; cases hj
    exact ⟨by rw [hslot j hij], by rw [State.record, hslot j hij]; rfl⟩
  length _ _ r _ := State.patternLength_congr (hbody _)
  sound := hsound

theorem State.eligible_of_free {i : SlotNo} (h : s.record i = none) : s.eligible i = false := by
  simp [State.eligible, h]

theorem State.eligible_of_silent {i : SlotNo} {r : Record} (h : s.record i = some r) (hr : r.state ≠ .alerting) :
    s.eligible i = false := by
  simp [State.eligible, h, Record.eligible, Record.isAlerting, hr]

theorem State.Alters.enroll {i : SlotNo} (hi : s.record i = none) (raiser : Raiser) {f : RaiseFields}
    (hf : s.PatternsSound → (s.entry f.pattern).body.nameable = true) : s.Alters (s.enroll i raiser f) :=
  .of_slot (State.eligible_of_free hi) rfl (fun j hj => by rw [State.slot_enroll, if_neg hj])
    (s.body_enroll i · raiser f) fun h => ⟨h.1.enroll hi raiser (hf h), h.2.congr (s.body_enroll i · raiser f)⟩

theorem State.Alters.reenroll {i : SlotNo} {old : Record} (hi : s.record i = some old) (hst : old.state ≠ .alerting)
    {f : RaiseFields} (hf : s.PatternsSound → (s.entry f.pattern).body.nameable = true) :
    s.Alters (s.reenroll i old f) :=
  .of_slot (State.eligible_of_silent hi hst) rfl (fun j hj => by rw [State.slot_reenroll, if_neg hj])
    (s.body_reenroll i · old f) fun h => ⟨h.1.reenroll hi (hf h), h.2.congr (s.body_reenroll i · old f)⟩

theorem State.Alters.internalRaise {i : SlotNo} {f : RaiseFields} (hm : s.MayRaise i f) :
    s.Alters (s.internalRaise i f).1 := by
  have hf (h : s.PatternsSound) : (s.entry f.pattern).body.nameable = true := h.1.2.2.nameable hm.builtIn
  rcases s.internalRaise_cases i f with ⟨hr, he⟩ | ⟨r, hr, hst, he⟩ | ⟨r, hr, hst, he⟩ <;> rw [he]
  · rw [State.createRecord_eq_enroll]; exact (State.Alters.enroll hr _ hf).post _
  · exact (State.Calms.refl s).alters
  · rw [State.realertRecord_eq_reenroll]; exact (State.Alters.reenroll hr hst hf).post _

/-- One record changed that keeps its pattern. -/
theorem State.Alters.setRecord {i : SlotNo} {r r' : Record} (hr : s.record i = some r) (ha : r.Amends r') :
    s.Alters (s.setRecord i r') where
  play := rfl
  kept j _ _ := by
    by_cases hij : i = j
    · subst hij
      refine ⟨by rw [State.slot_setRecord, if_pos rfl], ?_⟩
      rw [State.record_setRecord, if_pos rfl, hr]
      exact congrArg some ha.pattern
    · have hslot : (s.setRecord i r').slot j = s.slot j := by rw [State.slot_setRecord, if_neg hij]
      exact ⟨by rw [hslot], by rw [State.record, hslot]; rfl⟩
  length _ _ _ _ := rfl
  sound hs := hs.atom (Atom.amend s i r r' hr ha)

theorem State.Alters.unmuteRecords (s : State) : s.Alters s.unmuteRecords where
  play := by rw [State.unmuteRecords, State.mapRecords_eq]
  kept i _ _ := by
    refine ⟨by rw [State.unmuteRecords, State.slot_mapRecords], ?_⟩
    rw [State.unmuteRecords, State.record_mapRecords]
    cases s.record i <;> rfl
  length _ _ r _ := State.patternLength_congr (by rw [State.unmuteRecords, State.entry_mapRecords])
  sound hs := hs.quiets (quiets_unmuteRecords s)

end

/-! ### What a command comes to -/

/-- What becomes of the Play Context: it stays; records change and the Arbiter decides; or a silence action hushes it. -/
inductive Moves (s : State) : State → Prop
  | rest : Moves s s
  | decide {u : State} (h : s.Alters u) (leaving : Leaving) : Moves s (u.arbitrate leaving)
  | hush (level : Nat) : Moves s (s.muteRecords level).hush

/-- From s to t the Play Context is settled once, with nothing that it depends on changed before or after. -/
def Decides (s t : State) : Prop := ∃ s1 v, s.StillAs s1 ∧ Moves s1 v ∧ v.StillAs t

section
variable {s t u : State}

theorem State.StillAs.decides (h : s.StillAs t) : Decides s t := ⟨s, s, .refl s, .rest, h⟩

theorem State.Alters.decides (h : s.Alters u) (leaving : Leaving) : Decides s (u.arbitrate leaving) :=
  ⟨s, _, .refl s, .decide h leaving, .refl _⟩

theorem Decides.refl (s : State) : Decides s s := (State.StillAs.refl s).decides

/-- A change before the decision that sound does not depend on. -/
theorem State.StillAs.before (h : s.StillAs u) (ht : Decides u t) : Decides s t := by
  obtain ⟨s1, v, hs, hm, hv⟩ := ht
  exact ⟨s1, v, h.trans hs, hm, hv⟩

/-- A change before the decision that touches neither records nor directory nor Play Context. -/
theorem Decides.of_eq (h : Decides u t) (hp : u.play = s.play) (hs : u.slots = s.slots) (ha : u.arrival = s.arrival)
    (hd : u.directory = s.directory) : Decides s t := (State.StillAs.of_eq hp hs ha hd).before h

/-- Such a change with no decision. -/
theorem decides_of_eq (hp : t.play = s.play) (hs : t.slots = s.slots) (ha : t.arrival = s.arrival)
    (hd : t.directory = s.directory) : Decides s t := (State.StillAs.of_eq hp hs ha hd).decides

/-- A change after the decision that sound does not depend on. -/
theorem Decides.after (h : Decides s t) (ht : t.StillAs u) : Decides s u := by
  obtain ⟨s1, v, hs, hm, hv⟩ := h
  exact ⟨s1, v, hs, hm, hv.trans ht⟩

theorem decides_arbitrateIf {changed : State × Bool} (ha : changed.2 = true → s.Alters changed.1)
    (hs : changed.2 = false → s.StillAs changed.1) : Decides s (State.arbitrateIf changed) := by
  unfold State.arbitrateIf
  split
  · rename_i h; exact (ha h).decides _
  · rename_i h; exact (hs (by simpa using h)).decides

theorem decides_internalRaise {i : SlotNo} {f : RaiseFields} (hm : s.MayRaise i f) :
    Decides s (State.arbitrateIf (s.internalRaise i f)) := by
  refine decides_arbitrateIf (fun _ => .internalRaise hm) fun h => ?_
  rcases s.internalRaise_cases i f with ⟨-, he⟩ | ⟨r, -, -, he⟩ | ⟨r, -, -, he⟩ <;> rw [he] at h ⊢
  · cases h
  · exact .refl s
  · cases h

theorem decides_internalReturn (s : State) (i : SlotNo) : Decides s (State.arbitrateIf (s.internalReturn i)) := by
  refine decides_arbitrateIf (fun _ => (State.Calms.internalReturn s i).alters) fun h => ?_
  rcases s.internalReturn_cases i with ⟨-, he⟩ | ⟨r, -, -, he⟩ | ⟨r, who, -, -, he⟩ | ⟨r, -, -, he⟩ <;> rw [he] at h ⊢
  · exact .refl s
  · cases h
  · cases h
  · exact .refl s

end

end Sys2Proof.Machine
end


-- ==== Sys2Proof/Proofs/Owner.lean ====
section
/-! PROOF. Every step keeps the owner of the Play Context eligible and on its own pattern, and no record waiting for an
IDLE sounder (R35, R49, R50): every command but the step end, the tick and the resets comes to one settling of the Play
Context, and these three keep it by what they do. -/

namespace Sys2Proof.Machine

/-! ### The Executor's commands -/

section
variable {s : State} {p : Port}

theorem decides_gate {k : Kind} {payload : List Byte} {right : Rights → Bool} {go : Answer}
    (h : Decides s go.state) : Decides s (s.gate p k payload right go).state := by
  unfold State.gate
  split
  · exact .refl s
  · split
    · exact .refl s
    · split
      · exact .refl s
      · exact h

theorem decides_takeRequest {named : Byte → Bool} {serve : Port → List Byte → State → Answer}
    (h : ∀ p payload s, Decides s (serve p payload s).state) (s : State) : Decides s (s.takeRequest named serve) := by
  rcases s.takeRequest_cases named serve with he | ⟨p, r, rest, -, -, -, he⟩ <;> rw [he]
  · exact .refl s
  · exact ((h p r.payload (s.removeRequest p)).after (.setPort _ p _)).of_eq rfl rfl rfl rfl

end

section
variable (p : Port) (payload : List Byte) (s : State)

theorem State.patternRefusal_nameable {s : State} {n : PatNo} (h : s.patternRefusal n = none) :
    (s.entry n).body.nameable = true := by
  obtain ⟨l, hl⟩ := (s.patternRefusal_none_iff n).mp h
  rw [hl]; rfl

theorem decides_raiseNew (f : RaiseFields) : Decides s (s.raiseNew p f).state := by
  unfold State.raiseNew
  split
  · exact .refl s
  · rename_i hpat
    split
    · exact .refl s
    · split
      · exact .refl s
      · rename_i i hi
        obtain ⟨-, hfree⟩ := State.freeHostSlot_eq_some hi
        refine State.Alters.decides ?_ .byRelease
        rw [State.createRecord_eq_enroll]
        exact (State.Alters.enroll hfree _ fun _ => State.patternRefusal_nameable hpat).post _

theorem decides_raiseMatched {i : SlotNo} {q : Record} (hq : s.record i = some q) (f : RaiseFields) :
    Decides s (s.raiseMatched p i q f).state := by
  unfold State.raiseMatched
  split
  · exact .refl s
  · rename_i hst
    split
    · exact .refl s
    · rename_i hpat
      refine State.Alters.decides ?_ .byRelease
      rw [State.realertRecord_eq_reenroll]
      exact (State.Alters.reenroll hq (by simpa [Record.isAlerting] using hst)
        fun _ => State.patternRefusal_nameable hpat).post _

theorem decides_serveRaise : Decides s (serveRaise p payload s).state := by
  refine decides_gate ?_
  split
  · exact .refl s
  · split
    · exact decides_raiseNew p s _
    · split
      · exact decides_raiseNew p s _
      · rename_i hq; exact decides_raiseMatched p s hq _

theorem decides_serveClear : Decides s (serveClear p payload s).state := by
  refine decides_gate ?_
  split
  · exact .refl s
  · split
    · exact .refl s
    · split
      · exact .refl s
      · split
        · exact .refl s
        · dsimp only [State.okay]
          exact (State.Calms.clearRecord s _ _).alters.decides _

theorem decides_serveAck : Decides s (serveAck p payload s).state := by
  refine decides_gate ?_
  split
  · exact .refl s
  · split
    · exact .refl s
    · split
      · exact .refl s
      · split
        · exact .refl s
        · dsimp only [State.okay]
          exact (State.Calms.acknowledge s _ _).alters.decides _

theorem decides_serveAckAll : Decides s (serveAckAll p payload s).state :=
  decides_gate ((State.Calms.acknowledgeAll s (.port p)).alters.decides .byCut)

theorem decides_silenceAction (source : Source) : Decides s (s.silenceAction source) := by
  rw [State.silenceAction_eq]
  exact ⟨s, _, .refl s, .hush s.silenceLevel, .of_eq rfl rfl rfl rfl⟩

theorem decides_serveSilence : Decides s (serveSilence p payload s).state := decides_gate (decides_silenceAction s _)

theorem decides_serveAlertInfo : Decides s (serveAlertInfo p payload s).state := by
  refine decides_gate ?_
  split
  · exact .refl s
  · split <;> exact .refl s

theorem decides_serveAlertList : Decides s (serveAlertList p payload s).state := by
  refine decides_gate ?_
  split <;> exact .refl s

theorem decides_serveConfigGet : Decides s (serveConfigGet p payload s).state := by
  refine decides_gate ?_
  split
  · split <;> exact .refl s
  · exact .refl s

theorem decides_clearFault : Decides s s.clearFault :=
  (State.StillAs.setLine s _).before (decides_internalReturn _ _)

theorem decides_serveConfigSet : Decides s (serveConfigSet p payload s).state := by
  refine decides_gate ?_
  split
  · split
    · exact .refl s
    · show Decides s (State.followEnable _ _)
      unfold State.followEnable
      split
      · dsimp only
        split
        · exact (decides_clearFault _).of_eq rfl rfl rfl rfl
        · exact (State.StillAs.setLine _ _).decides.of_eq rfl rfl rfl rfl
      · exact (State.StillAs.setLine _ _).decides.of_eq rfl rfl rfl rfl
      · exact decides_of_eq rfl rfl rfl rfl
  · exact .refl s

/-- An entry that is not READY or DAMAGED changes without a sound of it. -/
theorem stillAs_of_atom_setEntry {n : PatNo} {e : Entry} {free : List Extent}
    (hn : (s.entry n).body.nameable = false) (ha : Atom none s (State.setEntry { s with free := free } n e)) :
    s.StillAs (State.setEntry { s with free := free } n e) :=
  .setEntry (fun hs => .inl (hs.1.unnamed (.inr hn))) fun hs => hs.atom ha

theorem decides_servePatternDefine : Decides s (servePatternDefine p payload s).state := by
  refine decides_gate ?_
  split
  · exact .refl s
  · rename_i n length loopIndex pace hfields
    split
    · rename_i hb
      split
      · exact .refl s
      · rename_i start free hfit
        obtain ⟨hl, hl', hloop, hp, hp'⟩ := defineFields_inRange hfields
        exact (stillAs_of_atom_setEntry s (by rw [hb]; rfl)
          (Atom.define s p n length loopIndex pace start free hb hfit hl hl' hloop hp hp')).decides
    · exact .refl s

theorem stillAs_writeSteps (index : Nat) (steps : List Step) : s.StillAs (s.writeSteps index steps) := by
  induction steps generalizing s index with
  | nil => exact .refl s
  | cons st steps ih => exact (State.StillAs.setWord s index st.word).trans (ih _ _)

theorem writeSteps_entry (index : Nat) (steps : List Step) (n : PatNo) :
    (s.writeSteps index steps).entry n = s.entry n := by
  induction steps generalizing s index with
  | nil => rfl
  | cons st steps ih => exact (ih (s.setWord index st.word) (index + 1)).trans (s.entry_setWord index st.word n)

theorem decides_servePatternAppend : Decides s (servePatternAppend p payload s).state := by
  refine decides_gate ?_
  split
  · exact .refl s
  · rename_i n steps _
    split
    · exact .refl s
    · split
      · rename_i l fill hb
        split
        · exact .refl s
        · split
          · exact .refl s
          · split
            · exact .refl s
            · rename_i hfit
              have hentry := writeSteps_entry s (l.start.getD 0 + fill) steps n
              have hwritten := stillAs_writeSteps s (l.start.getD 0 + fill) steps
              show Decides s ((s.writeSteps (l.start.getD 0 + fill) steps).setEntry n _)
              generalize s.writeSteps (l.start.getD 0 + fill) steps = written at hentry hwritten
              rw [← hentry] at hb ⊢
              exact hwritten.before (stillAs_of_atom_setEntry written (free := written.free) (by rw [hb]; rfl)
                (Atom.fill written n l fill _ hb (Nat.not_lt.mp hfit))).decides
      · exact .refl s

theorem decides_servePatternCommit : Decides s (servePatternCommit p payload s).state := by
  refine decides_gate ?_
  split
  · exact .refl s
  · rename_i n _
    split
    · exact .refl s
    · split
      · rename_i l fill hb
        split
        · exact .refl s
        · split
          · exact .refl s
          · exact ((stillAs_of_atom_setEntry s (free := s.free) (by rw [hb]; rfl) (Atom.commit s n l fill hb)).decides).after
              (.post _ _)
      · exact .refl s

theorem decides_deletePattern {n : PatNo} (h : s.deleteRefusal p n = none) : Decides s (s.deletePattern p n) := by
  obtain ⟨hu, -, hrefs⟩ := State.deleteRefusal_none h
  have hdrop {l : Layout} (hl : (s.entry n).body.layout = some l) : s.StillAs (s.dropPattern n l (.port p)) :=
    .dropPattern s _ hrefs fun hs => hs.atom (Atom.discard (some storeFaultSlot) s n l hu hl hrefs (.inl rfl))
  unfold State.deletePattern
  cases hb : (s.entry n).body with
  | empty => exact .refl s
  | loading l fill => exact (hdrop (by rw [hb]; rfl)).decides
  | ready l => exact (hdrop (by rw [hb]; rfl)).decides
  | damaged l =>
    dsimp only
    split
    · exact (hdrop (by rw [hb]; rfl)).before (decides_internalReturn _ _)
    · exact (hdrop (by rw [hb]; rfl)).decides

theorem decides_servePatternDelete : Decides s (servePatternDelete p payload s).state := by
  refine decides_gate ?_
  split
  · exact .refl s
  · split
    · exact .refl s
    · exact .refl s
    · rename_i h; exact decides_deletePattern p s h

theorem decides_servePatternInfo : Decides s (servePatternInfo p payload s).state := by
  refine decides_gate ?_
  split <;> exact .refl s

/-- A READY user entry marked DAMAGED, with the decision on a STORE_FAULT that raises (R85). -/
theorem decides_markDamaged {n : PatNo} (hu : isBuiltIn n = false) (source : Source) :
    Decides s (State.arbitrateIf (s.markDamaged n source)) := by
  unfold State.markDamaged
  split
  · rename_i l hb
    have hmarked : s.StillAs ((s.setEntry n { s.entry n with body := .damaged l }).post (.patternState n source)) :=
      (State.StillAs.setEntry (free := s.free) (fun _ => .inr (by rw [hb]; rfl))
        fun hs => hs.atom (Atom.damage s n l hu hb)).trans (.post _ _)
    dsimp only
    split
    · refine hmarked.before (decides_internalRaise (storeFaultFields_mayRaise _ n ?_))
      exact (damagedCount_pos_iff _).mpr ⟨n, hu, by simp [EntryBody.isDamaged]⟩
    · exact hmarked.decides
  · exact .refl s

theorem decides_servePatternRead : Decides s (servePatternRead p payload s).state := by
  refine decides_gate ?_
  split
  · exact .refl s
  · rename_i n offset count _
    split
    · rename_i l hb
      split
      · exact .refl s
      · dsimp only
        split
        · exact .refl s
        · rename_i hbad
          refine decides_markDamaged s (Bool.eq_false_iff.mpr fun hn => hbad ?_) _
          rw [State.readSteps_of_builtIn hn]
          simp
    · split <;> exact .refl s
    · exact .refl s

theorem decides_closePort : Decides s (s.closePort p) :=
  (State.StillAs.setPort s p _).before
    (((State.Calms.closeRecords _ p).alters.decides .byRelease).after (.leaveEntries _ p true))

theorem decides_helloSession : Decides s (s.helloSession p) := by
  unfold State.helloSession
  split
  · exact (State.StillAs.setPort s p _).decides
  · exact (State.StillAs.setPort s p _).before
      ((State.StillAs.setOrphans _ p false).before (decides_internalReturn _ _))
  · exact (decides_closePort p s).after (.setPort _ p _)

theorem decides_serveHello : Decides s (serveHello p payload s).state := by
  unfold serveHello
  split
  · exact .refl s
  · exact (decides_helloSession p s).after (.post _ _)

theorem decides_serveBye : Decides s (serveBye p payload s).state :=
  decides_gate ((decides_closePort p s).after (.post _ _))

theorem decides_serveSubscribe : Decides s (serveSubscribe p payload s).state := by
  refine decides_gate ?_
  split
  · exact .refl s
  · exact (State.StillAs.setPort s p _).decides

end

/-! ### The other commands -/

section
variable (s : State)

theorem decides_resetEnd (prof1 prof0 : Level) (n : PatNo) {others : List PatNo}
    (h : (s.leaveReset prof1 prof0).damagedNumbers = n :: others) :
    Decides s (State.arbitrateIf
      ((s.leaveReset prof1 prof0).internalRaise storeFaultSlot ((s.leaveReset prof1 prof0).storeFaultFields n))) :=
  (decides_internalRaise (storeFaultFields_mayRaise _ n (by rw [State.damagedCount, h]; exact Nat.succ_pos _))).of_eq
    rfl rfl rfl rfl

theorem decides_escalate (i : SlotNo) : Decides s (s.escalate i) := by
  unfold State.escalate
  split
  · exact .refl s
  · rename_i r hr
    split
    · rename_i hdue
      exact ((State.Alters.setRecord hr (r.amends_escalated hdue)).post _).decides _
    · exact .refl s

theorem decides_resound : Decides s s.resound :=
  (((State.Alters.unmuteRecords { s with mute := none }).decides .byRelease).after (.post _ _)).of_eq rfl rfl rfl rfl

theorem decides_loss (p : Port) :
    Decides s
      (State.post
        (State.leaveEntries
          (State.arbitrateIf
            (((s.loseSession p).setOrphans p true).internalRaise (portLostSlot p)
              (((s.loseSession p).setOrphans p true).portLostFields p))) p false)
        (.portState p .lost .timer)) := by
  have hlost : (((s.loseSession p).setOrphans p true).port p).session = .lost := by
    rw [State.setOrphans, State.port_mapRecords, State.loseSession, State.port_setPort, if_pos rfl]
  exact ((State.StillAs.setPort s p _).before ((State.StillAs.setOrphans _ p true).before
    (decides_internalRaise (portLostFields_mayRaise _ hlost)))).after
      ((State.StillAs.leaveEntries _ p false).trans (.post _ _))

theorem decides_actOnSample (sampled : Option FaultKind) : Decides s (s.actOnSample sampled) := by
  unfold State.actOnSample
  split
  · exact (State.StillAs.setLine s _).decides
  · split
    · exact (State.StillAs.setLine s _).decides
    · exact (State.StillAs.setLine s _).before
        (decides_internalRaise (sounderFaultFields_mayRaise _ _ (by simp [Line.isFault])))
  · split
    · exact (State.StillAs.setLine s _).decides
    · exact decides_clearFault s
  · exact (State.StillAs.setLine s _).decides
  · exact (State.StillAs.setLine s _).decides

end

section
variable {s t : State}

theorem decides_ite {b : Prop} [Decidable b] (h : b → Decides s t) : Decides s (if b then t else s) := by
  split
  · rename_i hb; exact h hb
  · exact .refl s

/-- What a command comes to for the sound: one settling of it; or a step end, a tick, or a reset (R35). -/
theorem exec_decides {c : Instr} (h : exec c s = .next t) :
    Decides s t ∨ t = s.endStep ∨ t = s.advance ∨ (t.play = .idle ∧ ∀ i, t.record i = none) := by
  cases c with
  | powerOnReset =>
    obtain rfl := Host.Outcome.next.inj ((exec_powerOnReset s).symm.trans h)
    exact .inr (.inr (.inr ⟨rfl, s.record_poweredOn⟩))
  | pinReset =>
    obtain rfl := Host.Outcome.next.inj ((exec_pinReset s).symm.trans h)
    exact .inr (.inr (.inr ⟨s.pinned_same.play, s.record_pinned⟩))
  | resetEnd prof1 prof0 =>
    cases h
    refine .inl (decides_ite fun _ => ?_)
    dsimp only
    split
    · exact decides_of_eq rfl rfl rfl rfl
    · rename_i hd; exact decides_resetEnd s prof1 prof0 _ hd
  | tick =>
    change Host.Outcome.next (if s.ticking then s.advance else s) = _ at h
    obtain rfl := Host.Outcome.next.inj h
    split
    · exact .inr (.inr (.inl rfl))
    · exact .inl (.refl s)
  | clkinStop => cases h; exact .inl (decides_of_eq rfl rfl rfl rfl)
  | clkinResume => cases h; exact .inl (decides_of_eq rfl rfl rfl rfl)
  | stepWordParityLoss index =>
    change execStepWordParityLoss index s = _ at h
    unfold execStepWordParityLoss at h
    split at h
    · cases h; exact .inl (State.StillAs.setWord s _ _).decides
    · cases h
  | chipSelectFall p =>
    cases h
    split
    · exact .inl (.refl s)
    · split <;> exact .inl (State.StillAs.setPort s p _).decides
  | chipSelectRise p => cases h; exact .inl (State.StillAs.setPort s p _).decides
  | sckRisingEdge p sdi =>
    cases h
    split
    · exact .inl (.refl s)
    · exact .inl (State.StillAs.setPort s p _).decides
  | unknownKind => cases h; exact .inl (decides_takeRequest (fun _ _ s => .refl s) s)
  | hello => cases h; exact .inl (decides_takeRequest decides_serveHello s)
  | bye => cases h; exact .inl (decides_takeRequest decides_serveBye s)
  | subscribe => cases h; exact .inl (decides_takeRequest decides_serveSubscribe s)
  | raise => cases h; exact .inl (decides_takeRequest decides_serveRaise s)
  | clear => cases h; exact .inl (decides_takeRequest decides_serveClear s)
  | ack => cases h; exact .inl (decides_takeRequest decides_serveAck s)
  | ackAll => cases h; exact .inl (decides_takeRequest decides_serveAckAll s)
  | silence => cases h; exact .inl (decides_takeRequest decides_serveSilence s)
  | alertInfo => cases h; exact .inl (decides_takeRequest decides_serveAlertInfo s)
  | alertList => cases h; exact .inl (decides_takeRequest decides_serveAlertList s)
  | patternDefine => cases h; exact .inl (decides_takeRequest decides_servePatternDefine s)
  | patternAppend => cases h; exact .inl (decides_takeRequest decides_servePatternAppend s)
  | patternCommit => cases h; exact .inl (decides_takeRequest decides_servePatternCommit s)
  | patternDelete => cases h; exact .inl (decides_takeRequest decides_servePatternDelete s)
  | patternInfo => cases h; exact .inl (decides_takeRequest decides_servePatternInfo s)
  | patternRead => cases h; exact .inl (decides_takeRequest decides_servePatternRead s)
  | status => cases h; exact .inl (decides_takeRequest (fun _ _ s => decides_gate (.refl s)) s)
  | configGet => cases h; exact .inl (decides_takeRequest decides_serveConfigGet s)
  | configSet => cases h; exact .inl (decides_takeRequest decides_serveConfigSet s)
  | stepEnd =>
    cases h
    split
    · exact .inr (.inl rfl)
    · exact .inl (.refl s)
  | escalationExpiry slot =>
    change execEscalationExpiry slot s = _ at h
    unfold execEscalationExpiry at h
    split at h
    · cases h; exact .inl (decides_escalate s _)
    · cases h
  | muteTimerExpiry => cases h; exact .inl (decides_ite fun _ => decides_resound s)
  | keepaliveExpiry p =>
    change execKeepaliveExpiry p s = _ at h
    unfold execKeepaliveExpiry at h
    split at h
    · obtain rfl := Host.Outcome.next.inj h; exact .inl (decides_loss s p)
    · cases h; exact .inl (.refl s)
  | lineSample sense loop =>
    cases h
    exact .inl (decides_ite fun _ =>
      (decides_actOnSample { s with lineTimer := some 100 } _).of_eq rfl rfl rfl rfl)
  | debounceSample ackPin silencePin testPin =>
    cases h; exact .inl (decides_ite fun _ => decides_of_eq rfl rfl rfl rfl)
  | panelAck =>
    cases h
    refine .inl (decides_ite fun _ => ?_)
    dsimp only
    split
    · exact ((State.Calms.acknowledgeAll _ .panel).alters.decides .byCut).of_eq rfl rfl rfl rfl
    · exact decides_of_eq rfl rfl rfl rfl
  | panelSilence =>
    cases h
    refine .inl (decides_ite fun _ => ?_)
    dsimp only
    split
    · exact (decides_silenceAction _ .panel).of_eq rfl rfl rfl rfl
    · exact decides_of_eq rfl rfl rfl rfl
  | buttonReleaseAccepted b =>
    cases h
    cases b <;> exact .inl (decides_ite fun _ => decides_of_eq rfl rfl rfl rfl)
  | lampTestBegin => cases h; exact .inl (decides_ite fun _ => decides_of_eq rfl rfl rfl rfl)
  | lampTestEnd => cases h; exact .inl (decides_ite fun _ => decides_of_eq rfl rfl rfl rfl)
  | flashClockTick => cases h; exact .inl (decides_ite fun _ => decides_of_eq rfl rfl rfl rfl)

/-! ### The settled context kept -/

theorem State.StillAs.ownerStands (h : s.StillAs t) (owner : Handle) : t.ownerStands owner = s.ownerStands owner := by
  rw [State.ownerStands, h.generation, h.eligible]; rfl

theorem State.StillAs.settled (h : s.StillAs t) (hs : s.Settled) : t.Settled :=
  ⟨fun owner now hp => by rw [h.ownerStands]; exact hs.1 owner now (h.play ▸ hp),
    fun hp => by rw [h.order]; exact hs.2 (h.play ▸ hp)⟩

theorem State.StillAs.playSound (h : s.StillAs t) (hp : s.PatternsSound) (hs : s.PlaySound) : t.PlaySound := by
  rw [State.playSound_iff] at hs ⊢
  refine ⟨fun owner now hplay => ?_, fun now hnow => hs.2 now (h.play ▸ hnow)⟩
  obtain ⟨r, hr, hpat, hlt⟩ := hs.1 owner now (h.play ▸ hplay)
  have hsame := h.pattern owner.slot
  rw [hr] at hsame
  obtain ⟨q, hq, hqr⟩ := Option.map_eq_some_iff.mp hsame
  refine ⟨q, hq, hqr.trans hpat, ?_⟩
  rw [← hpat, h.length hp owner.slot r hr, hpat]
  exact hlt

/-- An owner that stood, and stands after records have changed, is on the pattern it was on. -/
theorem State.Alters.playsWhereStanding (h : s.Alters t) (hp : s.PatternsSound) (hs : s.PlaySound)
    (ho : s.OwnerStands) : t.PlaysWhereStanding := by
  rw [State.playSound_iff] at hs
  refine ⟨fun owner now hplay hstands => ?_, fun now hnow => hs.2 now (h.play ▸ hnow)⟩
  rw [h.play] at hplay
  obtain ⟨r, hr, hpat, hlt⟩ := hs.1 owner now hplay
  have hbefore := (s.ownerStands_iff owner).mp (ho owner now hplay)
  have hafter := (t.ownerStands_iff owner).mp hstands
  have hsame := (h.kept owner.slot hbefore.2 hafter.2).2
  rw [hr] at hsame
  obtain ⟨q, hq, hqr⟩ := Option.map_eq_some_iff.mp hsame
  refine ⟨q, hq, hqr.trans hpat, ?_⟩
  rw [← hpat, h.length hp owner.slot r hr, hpat]
  exact hlt

/-- With no eligible record more than before, a silent order stays silent. -/
theorem State.order_nil_of_subset (ha : t.arrival = s.arrival) (he : ∀ i, t.eligible i = true → s.eligible i = true)
    (h : s.order = []) : t.order = [] := by
  rw [State.order_eq_rankAll] at h ⊢
  refine List.eq_nil_iff_forall_not_mem.mpr fun i hi => ?_
  rw [mem_rankAll, List.mem_filter, ha] at hi
  have hmem : i ∈ rankAll s.priority (s.arrival.filter s.eligible) := by
    rw [mem_rankAll, List.mem_filter]; exact ⟨hi.1, he i hi.2⟩
  rw [h] at hmem
  cases hmem

theorem State.eligible_of_muted {level : Nat} {i : SlotNo} (h : (s.muteRecords level).eligible i = true) :
    s.eligible i = true := by
  rw [State.eligible, State.muteRecords, State.record_mapRecords] at h
  rw [State.eligible]
  cases hr : s.record i with
  | none => rw [hr] at h; cases h
  | some r =>
    rw [hr] at h
    simp only [Option.map_some, Option.any_some] at h ⊢
    split at h
    · simp [Record.eligible] at h
    · exact h

/-- A silence action leaves an IDLE context IDLE, and settles any other (R44). -/
theorem State.hush_settled (level : Nat) (hs : s.Settled) :
    (s.muteRecords level).hush.Settled ∧ (s.PatternsSound → (s.muteRecords level).hush.PlaySound) := by
  have hmuted (h : s.PatternsSound) : (s.muteRecords level).PatternsSound := h.quiets (quiets_muteRecords s level)
  have hplay : (s.muteRecords level).play = s.play := by rw [State.muteRecords, State.mapRecords_eq]
  have harrival : (s.muteRecords level).arrival = s.arrival := by rw [State.muteRecords, State.mapRecords_eq]
  unfold State.hush
  split
  · rename_i hidle
    refine ⟨State.settled_of_silent hidle ?_, fun _ => State.playSound_of_idle hidle⟩
    exact State.order_nil_of_subset harrival (fun i hi => State.eligible_of_muted hi) (hs.2 (hplay ▸ hidle))
  · exact ⟨(State.cutStart_settled _).1, fun h => (State.cutStart_settled _).2 (hmuted h)⟩
  · exact ⟨(State.cutStart_settled _).1, fun h => (State.cutStart_settled _).2 (hmuted h)⟩

theorem Decides.settled (h : Decides s t) (hs : s.Settled) : t.Settled := by
  obtain ⟨s1, v, hs1, hm, hv⟩ := h
  refine hv.settled ?_
  cases hm with
  | rest => exact hs1.settled hs
  | decide h leaving => exact (State.arbitrate_settled _ leaving).1
  | hush level => exact (State.hush_settled level (hs1.settled hs)).1

theorem Decides.playSound (h : Decides s t) (hp : s.PatternsSound) (hs : s.PlaySound) (ho : s.OwnerStands) :
    t.PlaySound := by
  obtain ⟨s1, v, hs1, hm, hv⟩ := h
  have hp1 := hs1.sound hp
  have ho1 : s1.OwnerStands := fun owner now hplay => by rw [hs1.ownerStands]; exact ho owner now (hs1.play ▸ hplay)
  cases hm with
  | rest => exact hv.playSound hp1 (hs1.playSound hp hs)
  | decide h leaving =>
    have hu := h.sound hp1
    exact hv.playSound (hu.quiets (quiets_arbitrate _ leaving))
      ((State.arbitrate_settled _ leaving).2 hu (h.playsWhereStanding hp1 (hs1.playSound hp hs) ho1))
  | hush level =>
    refine hv.playSound (hp1.quiets ((quiets_muteRecords s1 level).trans (quiets_hush _))) ?_
    unfold State.hush
    split
    · rename_i hidle; exact State.playSound_of_idle hidle
    · exact (State.cutStart_settled _).2 (hp1.quiets (quiets_muteRecords s1 level))
    · exact (State.cutStart_settled _).2 (hp1.quiets (quiets_muteRecords s1 level))

/-! ### Step ends, ticks and resets -/

/-- A cycle reported leaves the record on its pattern, and the directory alone (R16, R58). -/
theorem State.reportCycle_frame (s : State) (i : SlotNo) :
    (∀ j, ((s.reportCycle i).slot j).generation = (s.slot j).generation) ∧
      (∀ j, ((s.reportCycle i).record j).map Record.pattern = (s.record j).map Record.pattern) ∧
      ∀ n, (s.reportCycle i).entry n = s.entry n := by
  unfold State.reportCycle
  split
  · exact ⟨fun _ => rfl, fun _ => rfl, fun _ => rfl⟩
  · rename_i r hr
    have hset : (∀ j, ((s.setRecord i r.cycled.1).slot j).generation = (s.slot j).generation) ∧
        (∀ j, ((s.setRecord i r.cycled.1).record j).map Record.pattern = (s.record j).map Record.pattern) ∧
        ∀ n, (s.setRecord i r.cycled.1).entry n = s.entry n := by
      refine ⟨fun j => ?_, fun j => ?_, fun _ => rfl⟩
      · rw [State.slot_setRecord]; split
        · rename_i hij; subst hij; rfl
        · rfl
      · rw [State.record_setRecord]; split
        · rename_i hij; subst hij; rw [hr]; exact congrArg some r.amends_cycled.pattern
        · rfl
    dsimp only
    split
    · exact hset
    · exact hset

theorem State.afterCycle_settled (s : State) (owner : Handle) (now : Sounding) :
    (s.afterCycle owner now).Settled ∧
      (s.PatternsSound → (∀ r, s.record owner.slot = some r → r.pattern = now.pattern) →
        (s.afterCycle owner now).PlaySound) := by
  unfold State.afterCycle
  split
  · rename_i hnone
    have hidle := s.setPlay_play .idle
    exact ⟨State.settled_of_silent hidle ((s.order_setPlay .idle).trans (State.order_of_head_none hnone)),
      fun _ _ => State.playSound_of_idle hidle⟩
  · rename_i i hhead
    split
    · rename_i hi
      subst hi
      have he := State.eligible_of_head hhead
      obtain ⟨hsettled, hsound⟩ := State.loadOwner_settled he (s.patternLoop now.pattern)
      obtain ⟨hsettled', hsound'⟩ := State.afterLoad_settled hsettled
      refine ⟨hsettled', fun h hpat => ?_⟩
      obtain ⟨r, hr, -⟩ := (s.eligible_iff _).mp he
      refine hsound' (h.quiets (quiets_loadOwner s _ _)) (hsound h fun q l hq hl => ?_)
      rw [hpat q hq] at hl
      rw [State.patternLoop, hl]
      exact (h.ready hl).1
    · obtain ⟨hsettled, hsound⟩ := s.cutStart_settled
      exact ⟨hsettled, fun h _ => hsound h⟩

theorem State.plainStepEnd_settled {owner : Handle} {now : Sounding} (hp : s.play = .playing owner now)
    (ho : s.OwnerStands) :
    (s.plainStepEnd owner now).Settled ∧
      (s.PatternsSound → (∀ r, s.record owner.slot = some r → r.pattern = now.pattern) →
        now.index + 1 < s.patternLength now.pattern → (s.plainStepEnd owner now).PlaySound) := by
  have he := ((s.ownerStands_iff owner).mp (ho owner now hp)).2
  obtain ⟨r, hr, -⟩ := (s.eligible_iff _).mp he
  unfold State.plainStepEnd
  rw [hr]
  dsimp only
  split
  · obtain ⟨hsettled, hsound⟩ := State.cutStart_settled (s.post (.sound .preempted (s.refTo owner.slot r)))
    exact ⟨hsettled, fun h _ _ => hsound (h.atom (Atom.post s _ rfl))⟩
  · obtain ⟨hsettled, hsound⟩ := State.loadOwner_settled he (now.index + 1)
    obtain ⟨hsettled', hsound'⟩ := State.afterLoad_settled hsettled
    refine ⟨hsettled', fun h hpat hlt => ?_⟩
    refine hsound' (h.quiets (quiets_loadOwner s _ _)) (hsound h fun q l hq hl => ?_)
    rw [hr] at hq
    cases hq
    rw [hpat r rfl] at hl
    obtain ⟨l', hl', hlt⟩ := s.lt_patternLength_iff.mp hlt
    rw [hl] at hl'
    cases hl'
    exact hlt

theorem State.endStep_settled (hs : s.Settled) : s.endStep.Settled := by
  unfold State.endStep
  split
  · exact hs
  · exact s.cutStart_settled.1
  · rename_i owner now hp
    split
    · exact (State.plainStepEnd_settled hp hs.1).1
    · exact (State.afterCycle_settled _ owner now).1

theorem State.endStep_playSound (h : s.PatternsSound) (hs : s.PlaySound) (ho : s.OwnerStands) :
    s.endStep.PlaySound := by
  unfold State.endStep
  split
  · exact hs
  · exact s.cutStart_settled.2 h
  · rename_i owner now hp
    obtain ⟨r, hr, hpat, -⟩ := (s.playSound_iff.mp hs).1 owner now hp
    have hown (q : Record) (hq : s.record owner.slot = some q) : q.pattern = now.pattern := by
      rw [hr] at hq; cases hq; exact hpat
    split
    · rename_i hlt
      exact (State.plainStepEnd_settled hp ho).2 h hown hlt
    · refine (State.afterCycle_settled _ owner now).2 (h.quiets (quiets_reportCycle s _)) fun q hq => ?_
      have hsame := (s.reportCycle_frame owner.slot).2.1 owner.slot
      rw [hq, hr] at hsame
      exact (Option.some.inj hsame).trans hpat

/-- A tick leaves the records' ranks, and the Play Context but for its time. -/
theorem State.advance_frame (s : State) :
    (∀ i, (s.advance.slot i).generation = (s.slot i).generation) ∧ (∀ i, s.advance.eligible i = s.eligible i) ∧
      s.advance.order = s.order := by
  have heligible : s.advance.eligible = s.eligible := by
    funext i
    rw [State.eligible, State.record_advance, State.eligible]
    cases s.record i <;> rfl
  have hpriority : s.advance.priority = s.priority := by
    funext i
    rw [State.priority, State.record_advance, State.priority]
    cases s.record i <;> rfl
  refine ⟨fun i => by rw [State.slot_advance]; rfl, congrFun heligible, ?_⟩
  rw [State.order_eq_rankAll, State.order_eq_rankAll, heligible, hpriority, State.advance_arrival]

theorem Play.countDown_eq_playing {play : Play} {owner : Handle} {now : Sounding}
    (h : play.countDown = .playing owner now) :
    ∃ before, play = .playing owner before ∧ now = { before with timeLeft := before.timeLeft - 1 } := by
  cases play with
  | idle => cases h
  | playing o n => cases h; exact ⟨n, rfl, rfl⟩
  | tail n => cases h

theorem Play.now_countDown (play : Play) :
    play.countDown.now = play.now.map fun now => { now with timeLeft := now.timeLeft - 1 } := by
  cases play <;> rfl

theorem State.advance_settled (hs : s.Settled) : s.advance.Settled := by
  obtain ⟨hgen, helig, horder⟩ := s.advance_frame
  refine ⟨fun owner now hp => ?_, fun hp => ?_⟩
  · rw [State.advance_play] at hp
    obtain ⟨before, hbefore, -⟩ := Play.countDown_eq_playing hp
    rw [State.ownerStands, hgen, helig]
    exact hs.1 owner before hbefore
  · rw [horder]
    rw [State.advance_play] at hp
    refine hs.2 ?_
    cases hplay : s.play with
    | idle => rfl
    | playing o n => rw [hplay] at hp; cases hp
    | tail n => rw [hplay] at hp; cases hp

theorem State.advance_playSound (hs : s.PlaySound) : s.advance.PlaySound := by
  rw [State.playSound_iff] at hs ⊢
  rw [State.advance_play]
  refine ⟨fun owner now hp => ?_, fun now hnow => ?_⟩
  · obtain ⟨before, hbefore, rfl⟩ := Play.countDown_eq_playing hp
    obtain ⟨r, hr, hpat, hlt⟩ := hs.1 owner before hbefore
    refine ⟨{ r with deadline := countDown r.deadline }, by rw [State.record_advance, hr]; rfl, hpat, ?_⟩
    rw [State.patternLength_congr (s := s) (by rw [State.entry_advance])]
    exact hlt
  · rw [Play.now_countDown] at hnow
    obtain ⟨before, hbefore, rfl⟩ := Option.map_eq_some_iff.mp hnow
    exact (Nat.sub_le _ 1).trans (hs.2 before hbefore)

theorem State.settled_of_free (hp : t.play = .idle) (hr : ∀ i, t.record i = none) : t.Settled :=
  State.settled_of_silent hp (State.order_eq_nil fun i => State.eligible_of_free (hr i))

end

/-- Settles O52: a command settles the sound once, after the records it changes. -/
theorem stepKeepsOwner : Obligations.StepKeepsOwner := by
  refine ⟨fun s t ho hi ht => ?_, fun s t hs ho hc he ht => ?_⟩
  · rcases step_cases ht with rfl | ⟨c, rest, -, hexec⟩
    · exact ⟨ho, hi⟩
    · have hs : State.Settled { s with pending := rest } := ⟨ho, hi⟩
      rcases exec_decides hexec with hd | rfl | rfl | ⟨hp, hr⟩
      · exact hd.settled hs
      · exact State.endStep_settled hs
      · exact State.advance_settled hs
      · exact State.settled_of_free hp hr
  · rcases step_cases ht with rfl | ⟨c, rest, -, hexec⟩
    · exact hs
    · have hp : State.PatternsSound { s with pending := rest } := ⟨hc, he⟩
      rcases exec_decides hexec with hd | rfl | rfl | ⟨hp', hr⟩
      · exact hd.playSound hp hs ho
      · exact State.endStep_playSound hp hs ho
      · exact State.advance_playSound (s := { s with pending := rest }) hs
      · exact State.playSound_of_idle hp'

end Sys2Proof.Machine
end


-- ==== Sys2Proof/Proofs/Turns.lean ====
section
/-! PROOF. The Request Executor: whose turn it is, what a taking comes to for every request kind, and what follows of
refusals, of the guarded fields, and of a record's identity (R1, R2, R135 to R137, R157). -/

namespace Sys2Proof.Machine

/-! ### Whose turn it is (R135) -/

section
variable {s : State}

/-- Where a request waits, it is some port's turn. -/
theorem State.exists_turn {p : Port} (h : (s.port p).inbound ≠ []) : ∃ q r rest, s.Turn q r rest := by
  classical
  obtain ⟨q, hq, hmin⟩ := Finset.exists_min_image (Finset.univ.filter fun q => (s.port q).inbound ≠ [])
    (turnDistance s.pointer) ⟨p, by simpa using h⟩
  have hwaits : (s.port q).inbound ≠ [] := by simpa using hq
  obtain ⟨r, rest, hr⟩ := List.exists_cons_of_ne_nil hwaits
  refine ⟨q, r, rest, hr, fun o ho => Decidable.byContradiction fun hne => ?_⟩
  have := hmin o (by simpa using hne)
  omega

theorem State.nextPort_eq_some_iff {p : Port} : s.nextPort = some p ↔ ∃ r rest, s.Turn p r rest := by
  refine ⟨fun h => ?_, fun ⟨r, rest, ht⟩ => State.nextPort_of_turn ht⟩
  have hwaits : (s.port p).inbound ≠ [] := by simpa using List.find?_some h
  obtain ⟨q, r, rest, ht⟩ := State.exists_turn hwaits
  have hqp : q = p := Option.some.inj ((State.nextPort_of_turn ht).symm.trans h)
  exact ⟨r, rest, hqp ▸ ht⟩

theorem State.nextPort_eq_none_iff : s.nextPort = none ↔ ∀ p, (s.port p).inbound = [] := by
  constructor
  · refine fun h p => Decidable.byContradiction fun hne => ?_
    obtain ⟨q, r, rest, ht⟩ := State.exists_turn hne
    rw [State.nextPort_of_turn ht] at h
    cases h
  · intro h
    cases hnext : s.nextPort with
    | none => rfl
    | some p =>
      obtain ⟨r, rest, hr, -⟩ := State.nextPort_eq_some_iff.mp hnext
      rw [h p] at hr
      cases hr

theorem State.takeRequest_of_empty (h : ∀ p, (s.port p).inbound = []) (named : Byte → Bool)
    (serve : Port → List Byte → State → Answer) : s.takeRequest named serve = s := by
  simp only [State.takeRequest, State.nextPort_eq_none_iff.mpr h]

end

/-! ### The request commands -/

/-- What the Executor makes of a request of each kind. -/
def serviceOf : Kind → Port → List Byte → State → Answer
  | .hello => serveHello
  | .bye => serveBye
  | .subscribe => serveSubscribe
  | .raise => serveRaise
  | .clear => serveClear
  | .ack => serveAck
  | .ackAll => serveAckAll
  | .silence => serveSilence
  | .alertInfo => serveAlertInfo
  | .alertList => serveAlertList
  | .patternDefine => servePatternDefine
  | .patternAppend => servePatternAppend
  | .patternCommit => servePatternCommit
  | .patternDelete => servePatternDelete
  | .patternInfo => servePatternInfo
  | .patternRead => servePatternRead
  | .status => serveStatus
  | .configGet => serveConfigGet
  | .configSet => serveConfigSet

/-- What is to show of every request command, shown of each of the nineteen. -/
theorem forall_requestCommands {P : Instr → Kind → Prop}
    (h : (P .hello .hello ∧ P .bye .bye ∧ P .subscribe .subscribe ∧ P .raise .raise ∧ P .clear .clear ∧ P .ack .ack ∧
      P .ackAll .ackAll ∧ P .silence .silence ∧ P .alertInfo .alertInfo ∧ P .alertList .alertList) ∧
      (P .patternDefine .patternDefine ∧ P .patternAppend .patternAppend ∧ P .patternCommit .patternCommit ∧
      P .patternDelete .patternDelete ∧ P .patternInfo .patternInfo ∧ P .patternRead .patternRead ∧
      P .status .status ∧ P .configGet .configGet ∧ P .configSet .configSet))
    {c : Instr} {k : Kind} (hc : (c, k) ∈ requestCommands) : P c k := by
  obtain ⟨⟨h1, h2, h3, h4, h5, h6, h7, h8, h9, h10⟩, h11, h12, h13, h14, h15, h16, h17, h18, h19⟩ := h
  simp only [requestCommands, List.mem_cons, Prod.mk.injEq, List.not_mem_nil, or_false] at hc
  rcases hc with ⟨rfl, rfl⟩ | ⟨rfl, rfl⟩ | ⟨rfl, rfl⟩ | ⟨rfl, rfl⟩ | ⟨rfl, rfl⟩ | ⟨rfl, rfl⟩ | ⟨rfl, rfl⟩ | ⟨rfl, rfl⟩ |
    ⟨rfl, rfl⟩ | ⟨rfl, rfl⟩ | ⟨rfl, rfl⟩ | ⟨rfl, rfl⟩ | ⟨rfl, rfl⟩ | ⟨rfl, rfl⟩ | ⟨rfl, rfl⟩ | ⟨rfl, rfl⟩ | ⟨rfl, rfl⟩ |
    ⟨rfl, rfl⟩ | ⟨rfl, rfl⟩ <;> assumption

section
variable {c : Instr} {k : Kind} {s t : State} {p : Port} {r : Request} {rest : List Request}

theorem exec_eq_takeRequest (h : (c, k) ∈ requestCommands) (s : State) :
    exec c s = .next (s.takeRequest (isKind k) (serviceOf k)) := by
  refine forall_requestCommands (P := fun c k => exec c s = .next (s.takeRequest (isKind k) (serviceOf k))) ?_ h
  exact ⟨⟨rfl, rfl, rfl, rfl, rfl, rfl, rfl, rfl, rfl, rfl⟩, rfl, rfl, rfl, rfl, rfl, rfl, rfl, rfl, rfl⟩

theorem answers_service (h : (c, k) ∈ requestCommands) (p : Port) (payload : List Byte) (s : State) :
    Answers c p s (serviceOf k p payload s) := by
  refine forall_requestCommands (P := fun c k => Answers c p s (serviceOf k p payload s)) ?_ h
  exact ⟨⟨answers_serveHello p payload s, answers_serveBye p payload s, answers_serveSubscribe p payload s,
    answers_serveRaise p payload s, answers_serveClear p payload s, answers_serveAck p payload s,
    answers_serveAckAll p payload s, answers_serveSilence p payload s, answers_serveAlertInfo p payload s,
    answers_serveAlertList p payload s⟩, answers_servePatternDefine p payload s, answers_servePatternAppend p payload s,
    answers_servePatternCommit p payload s, answers_servePatternDelete p payload s, answers_servePatternInfo p payload s,
    answers_servePatternRead p payload s, answers_serveStatus p payload s, answers_serveConfigGet p payload s,
    answers_serveConfigSet p payload s⟩

/-- A request command of the kind that is next takes the request, serves it and replies. -/
theorem exec_of_turn (h : (c, k) ∈ requestCommands) (ht : s.Turn p r rest) (hk : kindOf r.kind = some k) :
    exec c s = .next
      ((serviceOf k p r.payload (s.removeRequest p)).state.postReply p
        { seq := r.seq, status := (serviceOf k p r.payload (s.removeRequest p)).status,
          payload := (serviceOf k p r.payload (s.removeRequest p)).payload }) := by
  rw [exec_eq_takeRequest h, State.takeRequest_of_turn ht, if_pos (by simp [isKind, hk])]

theorem exec_of_turn_other (h : (c, k) ∈ requestCommands) (ht : s.Turn p r rest) (hk : kindOf r.kind ≠ some k) :
    exec c s = .next s := by
  rw [exec_eq_takeRequest h, State.takeRequest_of_turn ht, if_neg (by simp [isKind, hk])]

theorem exec_unknownKind_of_turn (ht : s.Turn p r rest) (hk : kindOf r.kind = none) :
    exec .unknownKind s = .next ((s.removeRequest p).refusedWith p r .unknownKind []) := by
  show Host.Outcome.next (s.takeRequest _ _) = _
  rw [State.takeRequest_of_turn ht, if_pos (by simp [hk])]
  rfl

theorem exec_unknownKind_of_turn_other (ht : s.Turn p r rest) (hk : kindOf r.kind ≠ none) :
    exec .unknownKind s = .next s := by
  show Host.Outcome.next (s.takeRequest _ _) = _
  rw [State.takeRequest_of_turn ht, if_neg (by simp [hk])]

/-! ### The pointer and the queues (R135) -/

theorem Serves.pointer (h : Serves c p s t) : t.pointer = s.pointer := by
  cases h with
  | turnOn => exact State.setLine_pointer _ _
  | turnOff => exact State.setLine_pointer _ _
  | turnOffInFault =>
    exact (Quiets.acts (quiets_internalReturn _ _)).frame.pointer.trans (State.setLine_pointer _ _)
  | _ => rfl

theorem Answers.pointer {a : Answer} (h : Answers c p s a) : a.state.pointer = s.pointer := by
  obtain ⟨s1, hserves, hacts⟩ := h.acts
  exact hacts.frame.pointer.trans hserves.pointer

/-- What a taking makes of the pointer and the queues: the request goes, and one reply comes. -/
theorem answered_queues {a : Answer} (h : Answers c p (s.removeRequest p) a) (ht : s.Turn p r rest) (reply : Reply) :
    (a.state.postReply p reply).pointer = p ∧ ((a.state.postReply p reply).port p).inbound = rest ∧
      ((a.state.postReply p reply).port p).replies = (s.port p).replies ++ [reply] ∧
      ∀ q, q ≠ p → ((a.state.postReply p reply).port q).inbound = (s.port q).inbound ∧
        ((a.state.postReply p reply).port q).replies = (s.port q).replies := by
  obtain ⟨hr, -⟩ := ht
  refine ⟨h.pointer, ?_, ?_, fun q hq => ?_⟩
  · rw [State.port_postReply, if_pos rfl]
    refine (h.port_frame p).inbound.trans ?_
    rw [State.removeRequest_port, if_pos rfl, hr]
    rfl
  · rw [State.port_postReply, if_pos rfl]
    show (a.state.port p).replies ++ [reply] = _
    rw [(h.port_frame p).replies, State.removeRequest_port, if_pos rfl]
  · rw [State.port_postReply, if_neg (Ne.symm hq), (h.port_frame q).inbound, (h.port_frame q).replies,
      State.removeRequest_port, if_neg (Ne.symm hq)]
    exact ⟨rfl, rfl⟩

theorem Opens.pointer (h : Opens c s t) (h1 : c ≠ .powerOnReset) (h2 : c ≠ .pinReset) : t.pointer = s.pointer := by
  cases h with
  | powerOn => exact absurd rfl h1
  | pinReset => exact absurd rfl h2
  | tick => exact s.advance_pointer
  | _ => rfl

end

/-- Settles O42: the turn is the least distance from the pointer, and serving touches no queue but by the reply. -/
theorem executorServesInTurn : Obligations.ExecutorServesInTurn := by
  refine ⟨fun s p => State.nextPort_eq_some_iff, fun s => State.nextPort_eq_none_iff,
    fun c k s p r rest hc ht => ⟨fun hk => ?_, exec_of_turn_other hc ht⟩, fun s p r rest ht hk => ?_,
    fun s p r rest ht hk => exec_unknownKind_of_turn_other ht hk, fun c s hc hempty => ?_,
    fun c s t ht h1 h2 h3 h4 => ?_⟩
  · obtain ⟨hpointer, hinbound, hreplies, hothers⟩ :=
      answered_queues (answers_service hc p r.payload (s.removeRequest p)) ht _
    exact ⟨_, exec_of_turn hc ht hk, hpointer, hinbound, hothers, _, _, hreplies⟩
  · obtain ⟨hpointer, hinbound, -⟩ :=
      answered_queues (c := .unknownKind) (answers_refuse (s := s.removeRequest p) .unknownKind) ht _
    exact ⟨_, exec_unknownKind_of_turn ht hk, hpointer, hinbound⟩
  · rcases hc with rfl | ⟨k, hc⟩
    · exact congrArg Host.Outcome.next (State.takeRequest_of_empty hempty _ _)
    · rw [exec_eq_takeRequest hc, State.takeRequest_of_empty hempty]
  · rcases exec_carried ht with rfl | ⟨-, s0, hopens, hacts⟩ | ⟨htaking, -⟩
    · rfl
    · exact hacts.frame.pointer.trans (hopens.pointer h1 h2)
    · rcases (Instr.isTaking_iff c).mp htaking with h | ⟨k, h⟩
      · exact absurd h h3
      · exact absurd h (h4 k)

/-- Settles O43: an answer that refuses has the state it was given. -/
theorem refusalsChangeNothing : Obligations.RefusalsChangeNothing := by
  intro c k s t p r rest reply hc hturn hk ht hreplies hstatus
  have hanswers := answers_service hc p r.payload (s.removeRequest p)
  obtain rfl := Host.Outcome.next.inj ((exec_of_turn hc hturn hk).symm.trans ht)
  obtain ⟨-, -, hposted, -⟩ := answered_queues hanswers hturn
    { seq := r.seq, status := (serviceOf k p r.payload (s.removeRequest p)).status,
      payload := (serviceOf k p r.payload (s.removeRequest p)).payload }
  obtain rfl := (List.cons.inj (List.append_cancel_left (hposted.symm.trans hreplies))).1
  rw [hanswers.refusal hstatus]
  rfl

/-! ### The guarded fields (R138, R139, R157) -/

section
variable {c : Instr} {s t : State} {p : Port}

theorem Params.write_profile {a b : Params} {id v : Nat} (h : a.write id v = some b) : b.profile = a.profile := by
  unfold Params.write at h
  split at h <;> grind

/-- Only CONFIG_SET, from an OPEN port that holds C, serves with a change of parameters, and it keeps the profile. -/
theorem Serves.params (h : Serves c p s t) :
    t.params = s.params ∨
      (c = .configSet ∧ (s.port p).session = .opened ∧ (s.rights p).c = true ∧ t.params.profile = s.params.profile) := by
  cases h with
  | configure _ _ id v params hw hc => exact .inr ⟨rfl, hc.1, hc.2, Params.write_profile hw⟩
  | turnOn _ _ id v params hw hc =>
    refine .inr ⟨rfl, hc.1, hc.2, ?_⟩
    rw [State.setLine_params]; exact Params.write_profile hw
  | turnOff _ _ id v params hw hc =>
    refine .inr ⟨rfl, hc.1, hc.2, ?_⟩
    rw [State.enableTurnedOff, State.setLine_params]; exact Params.write_profile hw
  | turnOffInFault _ _ id v params hw hc =>
    refine .inr ⟨rfl, hc.1, hc.2, ?_⟩
    rw [(Quiets.acts (quiets_internalReturn _ _)).frame.params, State.enableTurnedOff, State.setLine_params]
    exact Params.write_profile hw
  | _ => exact .inl rfl

theorem Serves.flashPhase (h : Serves c p s t) : t.flashPhase = s.flashPhase ∧ t.pending = s.pending := by
  cases h with
  | turnOn => exact ⟨State.setLine_flashPhase _ _, State.setLine_pending _ _⟩
  | turnOff => exact ⟨State.setLine_flashPhase _ _, State.setLine_pending _ _⟩
  | turnOffInFault _ _ id v params =>
    have hframe := (Quiets.acts (quiets_internalReturn (s.enableTurnedOff params) sounderFaultSlot)).frame
    exact ⟨hframe.flashPhase.trans (State.setLine_flashPhase _ _), hframe.pending.trans (State.setLine_pending _ _)⟩
  | _ => exact ⟨rfl, rfl⟩

/-- A command outside the Executor changes the parameters only at a reset, and the profile only at a reset's end. -/
theorem Opens.params (h : Opens c s t) :
    (t.params = s.params ∨ c = .powerOnReset ∨ c = .pinReset ∨ ∃ prof1 prof0, c = .resetEnd prof1 prof0) ∧
      (t.params.profile = s.params.profile ∨ ∃ prof1 prof0, c = .resetEnd prof1 prof0) := by
  cases h with
  | powerOn => exact ⟨.inr (.inl rfl), .inl rfl⟩
  | pinReset =>
    refine ⟨.inr (.inr (.inl rfl)), .inl ?_⟩
    rw [← State.pinned, s.pinned_same.params]
    rfl
  | leaveReset prof1 prof0 => exact ⟨.inr (.inr (.inr ⟨_, _, rfl⟩)), .inr ⟨_, _, rfl⟩⟩
  | tick => rw [State.advance_params]; exact ⟨.inl rfl, .inl rfl⟩
  | _ => exact ⟨.inl rfl, .inl rfl⟩

theorem Opens.flashPhase (h : Opens c s t) :
    (t.flashPhase = s.flashPhase ∨ c = .flashClockTick ∨ c = .powerOnReset ∨ c = .pinReset) ∧ t.pending = s.pending := by
  cases h with
  | powerOn => exact ⟨.inr (.inr (.inl rfl)), rfl⟩
  | pinReset =>
    refine ⟨.inr (.inr (.inr rfl)), ?_⟩
    rw [← State.pinned, s.pinned_same.pending]
    rfl
  | tick => exact ⟨.inl s.advance_flashPhase, s.advance_pending⟩
  | flash => exact ⟨.inr (.inl rfl), rfl⟩
  | _ => exact ⟨.inl rfl, rfl⟩

theorem State.rights_congr (h : t.params.profile = s.params.profile) (p : Port) : t.rights p = s.rights p := by
  rw [State.rights, h]; rfl

/-- What a taking does to the guarded fields. -/
theorem Takes.guarded {r : Request} {rest : List Request} {a : Answer} (h : Takes c s p r rest a t) :
    (t.params = s.params ∨
      (c = .configSet ∧ (s.port p).session = .opened ∧ (s.rights p).c = true ∧ t.params.profile = s.params.profile)) ∧
      t.flashPhase = s.flashPhase ∧ t.pending = s.pending := by
  obtain ⟨s1, hserves, hacts⟩ := h.answers.acts
  have hframe := hacts.frame
  obtain ⟨hflash, hpending⟩ := hserves.flashPhase
  rw [h.result]
  refine ⟨?_, hframe.flashPhase.trans hflash, hframe.pending.trans hpending⟩
  rcases hserves.params with hp | ⟨hc, ho, hr, hp⟩
  · exact .inl (hframe.params.trans hp)
  · rw [State.removeRequest_session] at ho
    exact .inr ⟨hc, ho, hr, (congrArg Params.profile hframe.params).trans hp⟩

end

/-- Settles O48: the shared operations leave these fields alone, and so do all openings and services but the few named. -/
theorem guardedFieldsChangeOnlyByTheirCommands : Obligations.GuardedFieldsChangeOnlyByTheirCommands := by
  intro c s t ht
  rcases exec_carried ht with rfl | ⟨-, s0, hopens, hacts⟩ | ⟨-, p, r, rest, a, htakes⟩
  · exact ⟨fun h => absurd rfl h, fun h => absurd rfl h, fun _ _ => rfl, fun h => absurd rfl h, rfl⟩
  · have hframe := hacts.frame
    obtain ⟨hparams, hprofile⟩ := hopens.params
    obtain ⟨hflash, hpending⟩ := hopens.flashPhase
    rw [hframe.params, hframe.flashPhase, hframe.pending]
    refine ⟨fun hne => ?_, fun hne => hprofile.resolve_left hne, fun hend q => ?_, fun hne => hflash.resolve_left hne,
      hpending⟩
    · rcases hparams.resolve_left hne with h | h | h
      · exact .inl h
      · exact .inr (.inl h)
      · exact .inr (.inr (.inl h))
    · refine State.rights_congr ?_ q
      rw [hframe.params]
      exact hprofile.resolve_right fun ⟨prof1, prof0, h⟩ => hend prof1 prof0 h
  · obtain ⟨hparams, hflash, hpending⟩ := htakes.guarded
    have hprofile : t.params.profile = s.params.profile := by
      rcases hparams with h | ⟨-, -, -, h⟩
      · rw [h]
      · exact h
    refine ⟨fun hne => ?_, fun hne => absurd hprofile hne, fun _ => State.rights_congr hprofile,
      fun hne => absurd hflash hne, hpending⟩
    obtain ⟨hc, ho, hr, -⟩ := hparams.resolve_left hne
    obtain ⟨r', rest', hturn⟩ := State.nextPort_eq_some_iff.mp htakes.next
    exact .inr (.inr (.inr ⟨hc, p, r', rest', hturn, ho, hr⟩))

/-! ### A record's identity (R1 to R3) -/

section
variable {c : Instr} {s t : State} {p : Port}

/-- Every record of a host slot has the origin and the tag that its slot's record had. -/
def State.KeepsIdentity (s t : State) (i : SlotNo) : Prop :=
  ∀ q', t.record i = some q' → ∃ q, s.record i = some q ∧ q'.origin = q.origin ∧ q'.tag = q.tag

theorem State.KeepsIdentity.acts {i : SlotNo} (hi : i.val < Config.hostSlots) (ht : Acts s t) (hs : s.SlotsByOrigin) :
    s.KeepsIdentity t i := by
  have hkeeps : t.SlotsByOrigin ∧ s.KeepsIdentity t i := by
    refine ht.keeps (I := fun t => t.SlotsByOrigin ∧ s.KeepsIdentity t i) (fun {w u v} ha ⟨hu, hkept⟩ => ?_)
      ⟨hs, fun q' hq => ⟨q', hq, rfl, rfl⟩⟩
    have hd := ha.derives hu
    have hv : v.SlotsByOrigin := fun j r hr => by
      rcases hd j r hr with ⟨ho, hj⟩ | ⟨r0, hr0, ho, -⟩
      · simp [ho, hj]
      · rw [ho]; exact hu j r0 hr0
    refine ⟨hv, fun q' hq' => ?_⟩
    rcases hd i q' hq' with ⟨-, hle⟩ | ⟨q1, hq1, ho, htag⟩
    · omega
    · obtain ⟨q, hq, ho', htag'⟩ := hkept q1 hq1
      have hhost : q'.origin ≠ .internal := fun h => by
        have := (hv i q' hq').mp h
        omega
      exact ⟨q, hq, ho.trans ho', (htag hhost).trans htag'⟩
  exact hkeeps.2

theorem State.KeepsIdentity.of_records {i : SlotNo} (h : t.record i = s.record i) : s.KeepsIdentity t i :=
  fun q' hq => ⟨q', h ▸ hq, rfl, rfl⟩

theorem State.KeepsIdentity.trans {u : State} {i : SlotNo} (h : s.KeepsIdentity t i) (h' : t.KeepsIdentity u i) :
    s.KeepsIdentity u i := fun q' hq' => by
  obtain ⟨q1, hq1, ho, htag⟩ := h' q' hq'
  obtain ⟨q, hq, ho', htag'⟩ := h q1 hq1
  exact ⟨q, hq, ho.trans ho', htag.trans htag'⟩

theorem State.KeepsIdentity.opens {i : SlotNo} (h : Opens c s t) (h1 : c ≠ .powerOnReset) (h2 : c ≠ .pinReset) :
    s.KeepsIdentity t i := by
  cases h with
  | powerOn => exact absurd rfl h1
  | pinReset => exact absurd rfl h2
  | tick =>
    intro q' hq'
    rw [State.record_advance] at hq'
    obtain ⟨q, hq, rfl⟩ := Option.map_eq_some_iff.mp hq'
    exact ⟨q, hq, rfl, rfl⟩
  | _ => exact .of_records rfl

/-- A service puts a new record into a FREE slot only, and re-alerts one with its own tag (R5, R7). -/
theorem State.KeepsIdentity.serves {i : SlotNo} {q : Record} (hi : i.val < Config.hostSlots) (hq : s.record i = some q)
    (hs : s.SlotsByOrigin) (h : Serves c p s t) : s.KeepsIdentity t i := by
  cases h with
  | create _ _ j f l _ _ hfree =>
    refine .of_records ?_
    rw [State.record_enroll, if_neg (by rintro rfl; rw [hq] at hfree; cases hfree)]
  | realert _ _ j f old l _ hr _ _ htag =>
    intro q' hq'
    rw [State.record_reenroll] at hq'
    split at hq'
    · rename_i hji; subst hji
      cases hq'
      exact ⟨old, hr, rfl, htag.symm⟩
    · exact ⟨q', hq', rfl, rfl⟩
  | turnOn => exact .of_records (State.record_setLine _ _ i)
  | turnOff => exact .of_records (State.record_setLine _ _ i)
  | turnOffInFault _ _ id v params =>
    have hforced : ∀ j, (s.enableTurnedOff params).record j = s.record j := fun j => State.record_setLine _ _ j
    refine (State.KeepsIdentity.of_records (hforced i)).trans
      (.acts hi (Quiets.acts (quiets_internalReturn _ _)) fun j r hr => hs j r (hforced j ▸ hr))
  | _ => exact .of_records rfl

end

/-- Settles O49: no action puts a record into a host slot, and a service only into a FREE one. -/
theorem recordsKeepTheirIdentity : Obligations.RecordsKeepTheirIdentity := by
  intro c s t i q q' htags hslots ht h1 h2 hq hq' _ hhost
  have hi : i.val < Config.hostSlots := Nat.lt_of_not_le fun hle => hhost ((hslots i q hq).mpr hle)
  have hkeeps : s.KeepsIdentity t i := by
    rcases exec_carried ht with rfl | ⟨-, s0, hopens, hacts⟩ | ⟨-, p, r, rest, a, -, -, ⟨⟨s1, hserves, hacts⟩, -⟩, rfl⟩
    · exact .of_records rfl
    · exact (State.KeepsIdentity.opens hopens h1 h2).trans
        (.acts hi hacts (State.IdentitiesSound.opens hopens ⟨hslots, htags⟩).1)
    · have hserved : s.KeepsIdentity s1 i := State.KeepsIdentity.serves (s := s.removeRequest p) hi hq hslots hserves
      have hacted : s1.KeepsIdentity a.state i := .acts hi hacts
        (State.IdentitiesSound.serves (s := s.removeRequest p) hserves ⟨hslots, htags⟩).1
      exact hserved.trans hacted
  obtain ⟨q0, hq0, ho, htag⟩ := hkeeps q' hq'
  rw [hq] at hq0
  cases hq0
  exact ⟨ho, htag⟩

end Sys2Proof.Machine
end


-- ==== Sys2Proof/Proofs/TableAndReset.lean ====
section
/-! PROOF. The front command, the panel's accepted changes, the freeing of a record, and the state after reset. -/

namespace Sys2Proof.Machine

/-- Settles O1, from the definition of a step. -/
theorem stepTakesFrontCommand : Obligations.StepTakesFrontCommand :=
  ⟨fun c s rest h => by rw [step, h], fun s h => by rw [step, h]⟩

/-- Settles O8: each of the five commands is a test of its button's accepted change. -/
theorem acceptedChangesAct : Obligations.AcceptedChangesAct := by
  refine ⟨fun s h hoff => ?_, fun s h hoff => ?_, fun s h => congrArg _ (if_pos h), fun s h => congrArg _ (if_pos h),
    fun s h => congrArg _ (if_pos h), fun s h => congrArg _ (if_pos h),
    fun s => ⟨fun h => congrArg _ (if_neg h), fun h => congrArg _ (if_neg h), fun h => congrArg _ (if_neg h),
      fun h => congrArg _ (if_neg h), fun h => congrArg _ (if_neg h), fun h => congrArg _ (if_neg h)⟩⟩
  · show execPanelAck s = _
    simp only [execPanelAck, h, hoff, if_true, Bool.false_eq_true, if_false, Button.handedOn]
  · show execPanelSilence s = _
    simp only [execPanelSilence, h, hoff, if_true, Bool.false_eq_true, if_false, Button.handedOn]

/-- Settles O10. -/
theorem freeingFollowsItsSteps : Obligations.FreeingFollowsItsSteps := by
  intro s i r source h
  refine ⟨s.freeRecord_eq i r source h, fun hgen => ?_⟩
  rw [State.freeRecord_eq_vacate h, State.slot_vacate, if_pos rfl]
  show (s.slot i).generation + 1 = 0#8
  rw [hgen]
  rfl

/-! ### The state after reset -/

theorem State.port_reset (p : Port) : State.reset.port p = PortState.reset := by
  simp [State.port, State.reset]

/-- A power-on reset ended with both straps low leaves the state after reset, where the pins stand as it takes them and no
command waits (log 1). -/
theorem State.leaveReset_poweredOn {s : State} (hs : ∀ p, (s.port p).selectLow = false) (hc : s.clkin = true)
    (hp : s.pending = []) : s.poweredOn.leaveReset .low .low = State.reset := by
  have hports : s.poweredOn.ports = State.reset.ports := by
    refine Vector.ext fun k hk => ?_
    have hport : s.poweredOn.port ⟨k, hk⟩ = State.reset.port ⟨k, hk⟩ := by
      rw [State.port_poweredOn, State.port_reset, PortState.afterReset_eq, hs]
      rfl
    exact hport
  have hfields : s.poweredOn.leaveReset .low .low =
      { State.reset with ports := s.poweredOn.ports, clkin := s.clkin, pending := s.pending } := rfl
  rw [hfields, hports, hc, hp]
  rfl

theorem exec_resetEnd_poweredOn (s : State) :
    exec (.resetEnd .low .low) s.poweredOn = .next (s.poweredOn.leaveReset .low .low) := by
  have hnone : (s.poweredOn.leaveReset .low .low).damagedNumbers = [] := by
    refine List.eq_nil_iff_forall_not_mem.mpr fun n hn => ?_
    obtain ⟨hu, hd⟩ := (mem_damagedNumbers _ n).mp hn
    have hentry : (s.poweredOn.leaveReset .low .low).entry n = Entry.empty :=
      (s.entry_poweredOn n).trans (State.entry_reset_of_user hu)
    rw [hentry] at hd
    cases hd
  show execResetEnd .low .low s.poweredOn = _
  rw [execResetEnd, if_pos (show s.poweredOn.inReset = true from rfl)]
  dsimp only
  rw [hnone]

/-- Settles O60: no slot is occupied after reset, no queue holds anything, and the whole Step Store is free. -/
theorem resetStateIsSound : Obligations.ResetStateIsSound := by
  have hnone {i : SlotNo} {r : Record} (hr : r ∈ State.reset.record i) : False := by
    rw [State.record_reset] at hr; cases hr
  have hsettled : State.reset.Settled := State.settled_of_free rfl State.record_reset
  have hidentities : State.reset.IdentitiesSound := .of_free State.record_reset
  have hcauses : State.reset.CausesExcept none := .of_free State.record_reset
  have hports (p : Port) : (State.reset.port p).TimersSound := by
    rw [State.port_reset]; exact PortState.timersSound_of_stopped rfl nofun
  have hclocks : State.reset.ClocksSound :=
    ⟨Params.default_inRange 0, rfl, rfl, rfl, Nat.zero_le _, Nat.zero_le _, Nat.le_refl 100, fun _ => ⟨fun _ => rfl, fun _ => rfl⟩⟩
  obtain ⟨htimers, hportsSound⟩ := State.reset.allTimersSound_iff.mp ⟨hclocks, hports⟩
  refine ⟨⟨countsExact_of_free State.record_reset State.refs_reset State.builtInsStand_reset, ?_, hsettled.1, hsettled.2,
    State.playSound_of_idle rfl, rfl, fun p => ?_, fun p => ?_, storeDivided_of_reset (fun _ => rfl) rfl, rfl,
    fun i r hr => (hnone hr).elim, Params.default_inRange 0, State.reset.causesStand_iff.mpr hcauses, hidentities.1,
    hidentities.2, State.lineSound_normal rfl fun _ => rfl, htimers, hportsSound⟩, fun s hs hc hp => ?_⟩
  · refine ⟨List.nodup_nil, fun i => ?_⟩
    rw [State.record_reset]
    exact ⟨nofun, nofun⟩
  · rw [State.port_reset]; exact Nat.zero_le 4
  · rw [State.port_reset]; exact ⟨eventQueueSound_nil, nofun⟩
  · exact ⟨_, exec_powerOnReset s, (exec_resetEnd_poweredOn s).trans
      (congrArg Host.Outcome.next (State.leaveReset_poweredOn hs hc hp))⟩

end Sys2Proof.Machine
end


-- ==== Sys2Proof/Proofs/FirstChecks.lean ====
section
/-! PROOF. The checks that stand before every request's own meaning (R140), the rights of Table 8.1, and how a taking
that passes the checks is answered (R137). -/

namespace Sys2Proof.Machine

/-! ### What a taking answers -/

section
variable {c : Instr} {k : Kind} {s : State} {p : Port} {r : Request} {rest : List Request}

theorem exec_of_refusal (hc : (c, k) ∈ requestCommands) (ht : s.Turn p r rest) (hk : kindOf r.kind = some k)
    {status : Status} {payload : List Byte}
    (ha : serviceOf k p r.payload (s.removeRequest p) =
      { state := s.removeRequest p, status := status, payload := payload }) :
    exec c s = .next ((s.removeRequest p).refusedWith p r status payload) := by
  rw [exec_of_turn hc ht hk, ha]
  rfl

theorem exec_of_answer (hc : (c, k) ∈ requestCommands) (ht : s.Turn p r rest) (hk : kindOf r.kind = some k)
    {t : State} {payload : List Byte} (ha : serviceOf k p r.payload (s.removeRequest p) = t.okay payload) :
    exec c s = .next (t.answered p r payload) := by
  rw [exec_of_turn hc ht hk, ha]
  rfl

theorem State.Taking.refused (h : s.Taking k p r rest) (hc : (c, k) ∈ requestCommands) {status : Status}
    {payload : List Byte}
    (ha : serviceOf k p r.payload (s.removeRequest p) =
      { state := s.removeRequest p, status := status, payload := payload }) :
    exec c s = .next ((s.removeRequest p).refusedWith p r status payload) := by
  obtain ⟨hturn, hkind, _, _⟩ := h
  exact exec_of_refusal hc hturn hkind ha

theorem State.Taking.served (h : s.Taking k p r rest) (hc : (c, k) ∈ requestCommands) {t : State}
    {payload : List Byte} (ha : serviceOf k p r.payload (s.removeRequest p) = t.okay payload) :
    exec c s = .next (t.answered p r payload) := by
  obtain ⟨hturn, hkind, _, _⟩ := h
  exact exec_of_answer hc hturn hkind ha

/-- A taking whose port holds the right passes the first checks. -/
theorem State.Taking.gate (h : s.Taking k p r rest) {right : Rights → Bool} (hr : right (s.rights p) = true)
    (go : Answer) : (s.removeRequest p).gate p k r.payload right go = go := by
  obtain ⟨_, _, hlength, hopen⟩ := h
  exact State.gate_pass _ _ _ _ _ _ hlength (by rw [State.removeRequest_session]; exact hopen) hr

end

/-! ### The gate and what a kind needs (R140, steps 2 to 4) -/

/-- The port lacks the right that a request of this kind needs (R139). -/
def Kind.Lacks (k : Kind) (x : Rights) : Prop :=
  (k ∈ [Kind.ackAll, .silence] ∧ x.a = false) ∨
    (k ∈ [Kind.patternDefine, .patternAppend, .patternCommit, .patternDelete] ∧ x.p = false) ∨
    (k = .configSet ∧ x.c = false)

theorem serviceOf_eq_gate {k : Kind} (hk : k ≠ .hello) (p : Port) (payload : List Byte) (s : State) :
    ∃ right go, serviceOf k p payload s = s.gate p k payload right go ∧ ∀ x, k.Lacks x → right x = false := by
  cases k with
  | hello => exact absurd rfl hk
  | clear | ack => exact ⟨fun x => x.r || x.a, _, rfl, fun x hx => by simp [Kind.Lacks] at hx⟩
  | configSet =>
    exact ⟨fun x => x.c && decide (payload.head? ≠ some 13#8), _, rfl, fun x hx => by
      simp only [Kind.Lacks] at hx
      simp_all⟩
  | _ =>
    refine ⟨_, _, rfl, fun x hx => ?_⟩
    simp [Kind.Lacks] at hx <;> simp [hx]

section
variable (s : State) (p : Port) {k : Kind} {payload : List Byte}

theorem serviceOf_of_badLength (h : lengthOk k payload = false) :
    serviceOf k p payload s = s.refuse .badLength := by
  by_cases hk : k = .hello
  · subst hk
    exact if_pos h
  · obtain ⟨right, go, hgate, _⟩ := serviceOf_eq_gate hk p payload s
    rw [hgate, State.gate, if_pos h]

theorem serviceOf_of_notOpen (h : lengthOk k payload = true) (hk : k ≠ .hello) (ho : (s.port p).session ≠ .opened) :
    serviceOf k p payload s = s.refuse .notOpen := by
  obtain ⟨right, go, hgate, _⟩ := serviceOf_eq_gate hk p payload s
  rw [hgate, State.gate, if_neg (by simp [h]), if_pos ho]

theorem serviceOf_of_noRight (h : lengthOk k payload = true) (ho : (s.port p).session = .opened)
    (hl : k.Lacks (s.rights p)) : serviceOf k p payload s = s.refuse .noRight := by
  have hk : k ≠ .hello := by
    rintro rfl
    simp [Kind.Lacks] at hl
  obtain ⟨right, go, hgate, hright⟩ := serviceOf_eq_gate hk p payload s
  rw [hgate, State.gate, if_neg (by simp [h]), if_neg (not_not.mpr ho), if_pos (hright _ hl)]

end

/-! ### The rights (R138, R139, Table 8.1) -/

theorem State.rights_r (s : State) (p : Port) : (s.rights p).r = true := by
  have h : ∀ profile p, (rightsOf profile p).r = true := by decide
  exact h _ p

theorem rightsOf_iff : ∀ (profile : Fin 4) (p : Port),
    ((rightsOf profile p).a = true ↔ ¬ (profile = 2 ∧ 2 ≤ p.val)) ∧
    ((rightsOf profile p).p = true ↔ profile = 0 ∨ p = 0 ∨ (p = 1 ∧ 2 ≤ profile.val)) ∧
    ((rightsOf profile p).c = true ↔ profile = 0 ∨ p = 0 ∨ (p = 1 ∧ profile = 3)) := by
  decide

theorem Rights.code_toNat (x : Rights) :
    x.code.toNat = x.r.toNat + 2 * x.a.toNat + 4 * x.p.toNat + 8 * x.c.toNat := by
  obtain ⟨r, a, p, c⟩ := x
  revert r a p c
  decide

/-- Settles O44. -/
theorem firstChecksInOrder : Obligations.FirstChecksInOrder := by
  refine ⟨fun s p r rest ht hk => exec_unknownKind_of_turn ht hk, ?_, fun s p => ?_⟩
  · intro c k s p r rest hc ht hk
    have hsession := s.removeRequest_session p p
    refine ⟨fun hl => ?_, fun hl hh ho => ?_, fun hl ho hr => ?_⟩
    · exact exec_of_refusal hc ht hk (serviceOf_of_badLength _ p hl)
    · exact exec_of_refusal hc ht hk (serviceOf_of_notOpen _ p hl hh (hsession ▸ ho))
    · exact exec_of_refusal hc ht hk (serviceOf_of_noRight _ p hl (hsession ▸ ho) hr)
  · obtain ⟨ha, hp, hc⟩ := rightsOf_iff s.params.profile p
    exact ⟨s.rights_r p, ha, hp, hc, Rights.code_toNat _⟩

end Sys2Proof.Machine
end


-- ==== Sys2Proof/Proofs/Raise.lean ====
section
/-! PROOF. RAISE (R5 to R8): the fields it carries, the record it creates, the record it re-alerts, and its refusals. -/

namespace Sys2Proof.Machine

/-! ### The fields of a RAISE (R5, Table 11.5) -/

theorem patternField_of_lt {b : Byte} (h : b.toNat < 32) : patternField b = some ⟨b.toNat, h⟩ := dif_pos h

theorem patternField_of_le {b : Byte} (h : 32 ≤ b.toNat) : patternField b = none := dif_neg (by omega)

theorem patternField_byte (n : PatNo) : patternField (byte n.val) = some n := by
  rw [patternField_eq_some_iff]
  simp only [byte, BitVec.toNat_ofNat]
  omega

section
variable {tagHi tagLo pattern base ceiling lamps mode count interval : Byte}

/-- The fields stand in the ranges of R5 and R167. -/
abbrev RaiseInRange (pattern base ceiling lamps mode count : Byte) : Prop :=
  pattern.toNat ≤ 31 ∧ (1 ≤ base.toNat ∧ base.toNat ≤ 7) ∧ (1 ≤ ceiling.toNat ∧ ceiling.toNat ≤ 7) ∧
    base.toNat ≤ ceiling.toNat ∧ lamps.toNat ≤ 15 ∧ mode.toNat ≤ 3 ∧ (mode.getLsbD 1 = true → 1 ≤ count.toNat)

theorem raiseFields_of_inRange (h : RaiseInRange pattern base ceiling lamps mode count) :
    raiseFields [tagHi, tagLo, pattern, base, ceiling, lamps, mode, count, interval] = some
      { tag := BitVec.ofNat 16 (number2 tagHi tagLo), pattern := ⟨pattern.toNat, Nat.lt_succ_of_le h.1⟩
        base := base.toNat, ceiling := ceiling.toNat, lamps := BitVec.ofNat 4 lamps.toNat
        latching := mode.getLsbD 0
        mode := if mode.getLsbD 1 then .counted count.toNat count.toNat else .continuous
        interval := interval.toNat } := by
  obtain ⟨hpattern, hbase, hceiling, horder, hlamps, hmode, hcount⟩ := h
  simp only [raiseFields, patternField_of_lt (Nat.lt_succ_of_le hpattern)]
  rw [if_neg (by omega), if_neg (by omega), if_neg fun ⟨hcounted, hzero⟩ => by have := hcount hcounted; omega]

theorem raiseFields_of_not_inRange (h : ¬ RaiseInRange pattern base ceiling lamps mode count) :
    raiseFields [tagHi, tagLo, pattern, base, ceiling, lamps, mode, count, interval] = none := by
  by_cases hpattern : pattern.toNat ≤ 31
  · simp only [raiseFields, patternField_of_lt (Nat.lt_succ_of_le hpattern)]
    split_ifs with hpriorities hmasks hcount <;> try rfl
    exact absurd ⟨hpattern, by omega, by omega, by omega, by omega, by omega, fun hcounted =>
      Nat.one_le_iff_ne_zero.mpr fun hzero => hcount ⟨hcounted, hzero⟩⟩ h
  · simp only [raiseFields, patternField_of_le (by omega : 32 ≤ pattern.toNat)]

end

/-! ### What a taking of a RAISE comes to -/

section
variable {s : State} {p : Port} {r : Request} {rest : List Request} {f : RaiseFields} {i : SlotNo} {q : Record}

theorem mem_requestCommands_raise : (Instr.raise, Kind.raise) ∈ requestCommands := by decide

theorem serviceOf_raise_of_badValue (h : s.Taking .raise p r rest) (hf : raiseFields r.payload = none) :
    serviceOf .raise p r.payload (s.removeRequest p) = (s.removeRequest p).refuse .badValue := by
  simp only [serviceOf, serveRaise, h.gate (s.rights_r p), hf]

theorem serviceOf_raise_of_new (h : s.Taking .raise p r rest) (hf : raiseFields r.payload = some f)
    (hnew : ∀ j, ∀ q ∈ s.record j, q.origin = .host p → q.tag ≠ f.tag) :
    serviceOf .raise p r.payload (s.removeRequest p) = (s.removeRequest p).raiseNew p f := by
  have hnone : (s.removeRequest p).findRecord p f.tag = none := (State.findRecord_eq_none_iff s p f.tag).mpr hnew
  simp only [serviceOf, serveRaise, h.gate (s.rights_r p), hf, hnone]

theorem State.TagsDistinct.findRecord (hs : s.TagsDistinct) (hq : s.record i = some q) (ho : q.origin = .host p)
    (ht : q.tag = f.tag) : s.findRecord p f.tag = some i := by
  cases hfound : s.findRecord p f.tag with
  | none => exact absurd ht ((State.findRecord_eq_none_iff s p f.tag).mp hfound i q hq ho)
  | some j =>
    obtain ⟨q', hq', ho', ht'⟩ := State.findRecord_eq_some hfound
    exact congrArg some (hs j i q' hq' q hq (by rw [ho']; exact nofun) (ho'.trans ho.symm) (ht'.trans ht.symm))

theorem serviceOf_raise_of_matched (h : s.Taking .raise p r rest) (hf : raiseFields r.payload = some f)
    (hs : s.TagsDistinct) (hq : s.record i = some q) (ho : q.origin = .host p) (ht : q.tag = f.tag) :
    serviceOf .raise p r.payload (s.removeRequest p) = (s.removeRequest p).raiseMatched p i q f := by
  have hfound : (s.removeRequest p).findRecord p f.tag = some i := hs.findRecord hq ho ht
  simp only [serviceOf, serveRaise, h.gate (s.rights_r p), hf, hfound, State.removeRequest_record, hq]

end

/-! ### A new record (R5, R8) -/

section
variable {s : State} {p : Port} {f : RaiseFields}

theorem State.patternRefusal_of_unusable
    (h : (s.entry f.pattern).body = .empty ∨ ∃ l fill, (s.entry f.pattern).body = .loading l fill) :
    s.patternRefusal f.pattern = some .patternNotReady := by
  obtain h | ⟨l, fill, h⟩ := h <;> simp only [State.patternRefusal, h]

theorem State.patternRefusal_of_damaged (h : ∃ l, (s.entry f.pattern).body = .damaged l) :
    s.patternRefusal f.pattern = some .patternDamaged := by
  obtain ⟨l, h⟩ := h
  simp only [State.patternRefusal, h]

theorem State.raiseNew_of_refusal {status : Status} (h : s.patternRefusal f.pattern = some status) :
    s.raiseNew p f = s.refuse status := by
  simp only [State.raiseNew, h]

theorem State.raiseNew_of_quota (h : s.patternRefusal f.pattern = none) (hq : s.params.quota ≤ s.holding p) :
    s.raiseNew p f = s.refuse .quota := by
  simp only [State.raiseNew, h, if_pos hq]

theorem State.raiseNew_of_full (h : s.patternRefusal f.pattern = none) (hq : s.holding p < s.params.quota)
    (hfull : s.freeHostSlot = none) : s.raiseNew p f = s.refuse .tableFull := by
  simp only [State.raiseNew, h, if_neg hq.not_ge, hfull]

theorem State.raiseNew_of_room (h : s.patternRefusal f.pattern = none) (hq : s.holding p < s.params.quota)
    {i : SlotNo} (hi : s.freeHostSlot = some i) :
    s.raiseNew p f =
      State.okay ((s.createRecord i (.host p false) f (.port p)).arbitrate .byRelease)
        (0#8 :: (s.handleOf i).bytes) := by
  simp only [State.raiseNew, h, if_neg hq.not_ge, hi]

end

/-- The first number that passes a test, in ascending order. -/
theorem find?_finRange_eq_some {n : Nat} {test : Fin n → Bool} {i : Fin n} (hi : test i = true)
    (hfirst : ∀ j, j < i → test j = false) : (List.finRange n).find? test = some i := by
  rw [List.find?_eq_some_iff_append]
  obtain ⟨before, after, hsplit⟩ := List.append_of_mem (List.mem_finRange i)
  refine ⟨hi, before, after, hsplit, fun j hj => ?_⟩
  have hsorted := hsplit ▸ List.pairwise_lt_finRange n
  rw [hfirst j ((List.pairwise_append.mp hsorted).2.2 j hj i List.mem_cons_self)]
  rfl

theorem State.freeHostSlot_of_lowest {s : State} {i : SlotNo} (hi : i.val < 24) (hfree : s.record i = none)
    (hlower : ∀ j, j < i → s.record j ≠ none) : s.freeHostSlot = some i := by
  refine find?_finRange_eq_some ?_ fun j hj => ?_
  · simp [Config.hostSlots, hi, hfree]
  · simp [Option.isSome_iff_ne_none.mpr (hlower j hj)]

theorem State.freeHostSlot_of_full {s : State} (h : ∀ i : SlotNo, i.val < 24 → s.record i ≠ none) :
    s.freeHostSlot = none := by
  refine List.find?_eq_none.mpr fun i _ => ?_
  simp only [Bool.and_eq_true, decide_eq_true_eq, Option.isNone_iff_eq_none, not_and]
  exact h i

/-- The holding, counted by any test that finds the port's own records. -/
theorem State.holding_eq (s : State) (p : Port) {own : Record → Bool} (h : ∀ q, own q = decide (q.origin = .host p)) :
    (List.finRange 30).countP (fun j => (s.record j).any own) = s.holding p := by
  rw [funext h]
  rfl

theorem Record.origin_of_internal {q : Record} (h : q.raiser = .internal) : q.origin = .internal := by
  simp [Record.origin, h, Raiser.origin]

/-! ### The statements -/

/-- Settles O11. -/
theorem raiseFieldsAreChecked : Obligations.RaiseFieldsAreChecked := by
  refine ⟨fun tagHi tagLo pattern base ceiling lamps mode count interval => ?_, fun s p r rest h hf =>
    h.refused mem_requestCommands_raise (serviceOf_raise_of_badValue h hf)⟩
  dsimp only
  by_cases h : RaiseInRange pattern base ceiling lamps mode count
  · rw [if_pos h]
    refine ⟨_, raiseFields_of_inRange h, ?_, rfl, rfl, rfl, ?_, rfl, rfl, rfl⟩
    · simp only [number2, BitVec.toNat_ofNat]
      omega
    · simp only [BitVec.toNat_ofNat]
      omega
  · rw [if_neg h]
    exact raiseFields_of_not_inRange h

/-- Settles O12. -/
theorem raiseCreatesRecord : Obligations.RaiseCreatesRecord := by
  intro s p r rest f l i holding h hf hnew hready hquota hi hfree hlower
  have hholding : holding = (s.removeRequest p).holding p := s.holding_eq p fun q => by
    cases hq : q.raiser <;> simp [Record.origin, hq, Raiser.origin]
  have hanswer := State.raiseNew_of_room (s := s.removeRequest p) (p := p)
    ((State.patternRefusal_none_iff _ f.pattern).mpr ⟨l, hready⟩) (hholding ▸ hquota)
    (State.freeHostSlot_of_lowest hi hfree hlower)
  refine h.served mem_requestCommands_raise ((serviceOf_raise_of_new h hf hnew).trans (hanswer.trans ?_))
  rw [State.createRecord_eq]
  rfl

/-- Settles O13. -/
theorem raiseExistingOrRefused : Obligations.RaiseExistingOrRefused := by
  refine ⟨fun s p r rest f i q hs h hf hq ho ht halerting => ?_, ?_⟩
  · refine h.served mem_requestCommands_raise ((serviceOf_raise_of_matched h hf hs hq ho ht).trans ?_)
    rw [State.raiseMatched, if_pos (by simpa [Record.isAlerting] using halerting)]
    rfl
  · intro s p r rest f holding h hf hnew
    have hholding : holding = (s.removeRequest p).holding p := s.holding_eq p fun q => by
      cases hq : q.raiser <;> simp [Record.origin, hq, Raiser.origin]
    have hready := fun hl => (State.patternRefusal_none_iff (s.removeRequest p) f.pattern).mpr hl
    have hrefused : ∀ status, (s.removeRequest p).raiseNew p f = (s.removeRequest p).refuse status →
        exec .raise s = .next ((s.removeRequest p).refusedWith p r status []) := fun status ha =>
      h.refused mem_requestCommands_raise ((serviceOf_raise_of_new h hf hnew).trans ha)
    refine ⟨fun hl => hrefused _ ?_, fun hl => hrefused _ ?_, fun hl hq => hrefused _ ?_,
      fun hl hq hfull => hrefused _ ?_⟩
    · exact State.raiseNew_of_refusal (State.patternRefusal_of_unusable hl)
    · exact State.raiseNew_of_refusal (State.patternRefusal_of_damaged hl)
    · exact State.raiseNew_of_quota (hready hl) (hholding ▸ hq)
    · exact State.raiseNew_of_full (hready hl) (hholding ▸ hq) (State.freeHostSlot_of_full hfull)

/-- Settles O14. -/
theorem raiseRealertsRecord : Obligations.RaiseRealertsRecord := by
  intro s p r rest f i q hs h hf hq ho ht hne
  have hmatched := serviceOf_raise_of_matched h hf hs hq ho ht
  rw [State.raiseMatched, if_neg (by simpa [Record.isAlerting] using hne)] at hmatched
  refine ⟨fun hl => h.refused mem_requestCommands_raise ?_, fun hl => h.refused mem_requestCommands_raise ?_,
    fun hl => h.served mem_requestCommands_raise ?_⟩
  · rw [hmatched, State.patternRefusal_of_unusable (s := s.removeRequest p) hl]
    rfl
  · rw [hmatched, State.patternRefusal_of_damaged (s := s.removeRequest p) hl]
    rfl
  · rw [hmatched, (State.patternRefusal_none_iff (s.removeRequest p) f.pattern).mpr hl, State.realertRecord_eq, ho]
    rfl

end Sys2Proof.Machine
end


-- ==== Sys2Proof/Proofs/HandleRequests.lean ====
section
/-! PROOF. The requests that name a record by its handle: the refusals of CLEAR, ACK and ALERT_INFO (R2, R140), and what
CLEAR and ACK make of the record (R9, R10). -/

namespace Sys2Proof.Machine

/-! ### The record a handle names (R2) -/

theorem slotField_of_val {b : Byte} {i : SlotNo} (h : b.toNat = i.val) : slotField b = some i := by
  simp [slotField, h]

theorem byte_toNat_of_lt {n : Nat} (h : n < 256) : (byte n).toNat = n := by
  simp only [byte, BitVec.toNat_ofNat]
  omega

theorem handleFields_of_range {slot : Byte} (generation : Byte) (h : 30 ≤ slot.toNat) :
    handleFields [slot, generation] = none := by
  simp [handleFields, handleField, slotField, h]

theorem handleFields_of_val {slot : Byte} {i : SlotNo} (generation : Byte) (h : slot.toNat = i.val) :
    handleFields [slot, generation] = some { slot := i, generation := generation } := by
  simp [handleFields, handleField, slotField_of_val h]

theorem State.named_of_stale {s : State} {h : Handle}
    (hs : s.record h.slot = none ∨ (s.slot h.slot).generation ≠ h.generation) : s.named h = none := by
  refine if_neg ?_
  obtain hs | hs := hs <;> simp [State.isCurrent, hs]

section
variable {s : State} {p : Port} {r : Request} {i : SlotNo} {q : Record}

theorem State.Names.handleFields (h : s.Names r i q) : handleFields r.payload = some (s.handleOf i) := by
  obtain ⟨hpayload, _⟩ := h
  rw [hpayload]
  exact handleFields_of_val _ (byte_toNat_of_lt (by omega))

theorem State.Names.named (h : s.Names r i q) : (s.removeRequest p).named (s.handleOf i) = some q := by
  obtain ⟨_, hq⟩ := h
  have hcurrent : (s.removeRequest p).isCurrent (s.handleOf i) = true := by
    simp [State.isCurrent, State.handleOf, hq]
  exact (if_pos hcurrent).trans hq

end

/-! ### The refusals of a handle (R140) -/

section
variable {k : Kind} {s : State} {p : Port} {r : Request} {rest : List Request} {slot generation : Byte}

/-- A taking of a CLEAR or an ACK passes the check of its right, because every port holds R. -/
theorem State.Taking.gate_own (h : s.Taking k p r rest) (go : Answer) :
    (s.removeRequest p).gate p k r.payload (fun x => x.r || x.a) go = go :=
  h.gate (by simp [s.rights_r p]) go

/-- The three kinds whose payload is a handle (Table 11.5). -/
def Kind.carriesHandle (k : Kind) : Prop := k = .clear ∨ k = .ack ∨ k = .alertInfo

theorem State.Taking.handle_refusals (h : s.Taking k p r rest) (hk : k.carriesHandle) :
    (Machine.handleFields r.payload = none →
      serviceOf k p r.payload (s.removeRequest p) = (s.removeRequest p).refuse .badValue) ∧
    ∀ x, Machine.handleFields r.payload = some x → (s.removeRequest p).named x = none →
      serviceOf k p r.payload (s.removeRequest p) = (s.removeRequest p).refuse .staleHandle := by
  obtain rfl | rfl | rfl := hk
  · exact ⟨fun hf => by simp only [serviceOf, serveClear, h.gate_own, hf],
      fun x hf hn => by simp only [serviceOf, serveClear, h.gate_own, hf, hn]⟩
  · exact ⟨fun hf => by simp only [serviceOf, serveAck, h.gate_own, hf],
      fun x hf hn => by simp only [serviceOf, serveAck, h.gate_own, hf, hn]⟩
  · have hgate := fun go => h.gate (right := anyRights) rfl go
    exact ⟨fun hf => by simp only [serviceOf, serveAlertInfo, hgate, hf],
      fun x hf hn => by simp only [serviceOf, serveAlertInfo, hgate, hf, hn]⟩

/-- Settles O15. -/
theorem staleHandlesAreRefused : Obligations.StaleHandlesAreRefused := by
  intro c k s p r rest slot generation hc h hpayload
  have hkind : k.carriesHandle := by
    simp only [List.mem_cons, Prod.mk.injEq, List.not_mem_nil, or_false] at hc
    obtain ⟨_, hk⟩ | ⟨_, hk⟩ | ⟨_, hk⟩ := hc
    exacts [.inl hk, .inr (.inl hk), .inr (.inr hk)]
  have hcommand : (c, k) ∈ requestCommands :=
    (by decide : [(Instr.clear, Kind.clear), (.ack, .ack), (.alertInfo, .alertInfo)] ⊆ requestCommands) hc
  obtain ⟨hrange, hstale⟩ := h.handle_refusals hkind
  refine ⟨fun hslot => h.refused hcommand (hrange ?_), fun i hi hs => h.refused hcommand (hstale { slot := i, generation := generation } ?_ ?_)⟩
  · rw [hpayload, handleFields_of_range generation hslot]
  · rw [hpayload, handleFields_of_val generation hi]
  · exact State.named_of_stale hs

end

/-! ### CLEAR (R9) -/

section
variable {s : State} {p : Port} {r : Request} {rest : List Request} {i : SlotNo} {q : Record}

theorem mem_requestCommands_clear : (Instr.clear, Kind.clear) ∈ requestCommands := by decide

theorem State.record_freeRecord_self (s : State) (i : SlotNo) (source : Source) :
    (s.freeRecord i source).record i = none := by
  cases h : s.record i with
  | none => rwa [State.freeRecord_free s i source h]
  | some q => rw [State.freeRecord_eq_vacate h, State.record_vacate, if_pos rfl]

theorem State.record_returnRecord_self (s : State) (i : SlotNo) (q : Record) (source : Source) :
    (s.returnRecord i q source).record i = some { q with state := .returned, deadline := none } := by
  rw [State.returnRecord_eq, State.record_post, State.record_setRecord, if_pos rfl]

theorem serviceOf_clear_of_notOwner (h : s.Taking .clear p r rest) (hn : s.Names r i q)
    (hmay : s.mayClear p q = false) :
    serviceOf .clear p r.payload (s.removeRequest p) = (s.removeRequest p).refuse .notOwner := by
  simp only [serviceOf, serveClear, h.gate_own, hn.handleFields, hn.named]
  exact if_pos hmay

theorem serviceOf_clear_of_returned (h : s.Taking .clear p r rest) (hn : s.Names r i q)
    (hmay : s.mayClear p q = true) (hstate : q.state = .returned) :
    serviceOf .clear p r.payload (s.removeRequest p) = (s.removeRequest p).okay [3#8] := by
  simp only [serviceOf, serveClear, h.gate_own, hn.handleFields, hn.named]
  rw [if_neg (by rw [show (s.removeRequest p).mayClear p q = true from hmay]; exact nofun), if_pos hstate]
  rfl

theorem serviceOf_clear_of_changed (h : s.Taking .clear p r rest) (hn : s.Names r i q)
    (hmay : s.mayClear p q = true) (hstate : q.state ≠ .returned) {t : State}
    (ht : (s.removeRequest p).clearRecord i (.port p) = t) :
    serviceOf .clear p r.payload (s.removeRequest p) =
      (t.arbitrate .byRelease).okay [slotStateCode (t.record i)] := by
  simp only [serviceOf, serveClear, h.gate_own, hn.handleFields, hn.named]
  rw [if_neg (by rw [show (s.removeRequest p).mayClear p q = true from hmay]; exact nofun), if_neg hstate, ← ht]
  rfl

theorem State.mayClear_iff_of_host {o : Port} {orphaned : Bool} (h : q.raiser = .host o orphaned) :
    s.mayClear p q = true ↔ o = p ∨ (orphaned = true ∧ (s.rights p).a = true) := by
  simp [State.mayClear, h, s.rights_r p]

theorem State.mayClear_of_internal (h : q.raiser = .internal) : s.mayClear p q = false := by
  simp [State.mayClear, h]

/-- Settles O16. -/
theorem clearActsByState : Obligations.ClearActsByState := by
  intro s p r rest i q h hn
  obtain ⟨_, hq⟩ := id hn
  have hq' : (s.removeRequest p).record i = some q := hq
  refine ⟨fun hother => h.refused mem_requestCommands_clear (serviceOf_clear_of_notOwner h hn ?_), ?_⟩
  · obtain hi | ⟨o, orphaned, ho, hne, hor⟩ := hother
    · exact State.mayClear_of_internal hi
    · rw [← Bool.not_eq_true, State.mayClear_iff_of_host ho, not_or, not_and_or, Bool.not_eq_true, Bool.not_eq_true]
      exact ⟨hne, hor⟩
  · rintro ⟨o, orphaned, ho, hmay⟩
    have hmay : s.mayClear p q = true := (State.mayClear_iff_of_host ho).mpr hmay
    refine ⟨fun ha hl => h.served mem_requestCommands_clear ?_, fun hf => h.served mem_requestCommands_clear ?_,
      fun hr => h.served mem_requestCommands_clear (serviceOf_clear_of_returned h hn hmay hr)⟩
    · have hreturned : (s.removeRequest p).clearRecord i (.port p) = (s.removeRequest p).returnRecord i q (.port p) := by
        simp [State.clearRecord, hq, ha, hl]
      rw [serviceOf_clear_of_changed h hn hmay (by simp [ha]) hreturned, State.record_returnRecord_self,
        State.returnRecord_eq]
      rfl
    · have hfreed : (s.removeRequest p).clearRecord i (.port p) = (s.removeRequest p).freeRecord i (.port p) := by
        obtain ⟨ha, hl⟩ | ⟨who, ha⟩ := hf
        · simp [State.clearRecord, hq, ha, hl]
        · simp [State.clearRecord, hq, ha]
      have hstate : q.state ≠ .returned := by
        obtain ⟨ha, _⟩ | ⟨who, ha⟩ := hf <;> simp [ha]
      rw [serviceOf_clear_of_changed h hn hmay hstate hfreed, State.record_freeRecord_self]
      rfl

/-! ### ACK (R10) -/

theorem mem_requestCommands_ack : (Instr.ack, Kind.ack) ∈ requestCommands := by decide

theorem State.mayAck_iff : s.mayAck p q = true ↔ (s.rights p).a = true ∨ q.origin = .host p := by
  simp [State.mayAck, s.rights_r p]

theorem serviceOf_ack_of_notOwner (h : s.Taking .ack p r rest) (hn : s.Names r i q) (hmay : s.mayAck p q = false) :
    serviceOf .ack p r.payload (s.removeRequest p) = (s.removeRequest p).refuse .notOwner := by
  simp only [serviceOf, serveAck, h.gate_own, hn.handleFields, hn.named]
  exact if_pos hmay

theorem serviceOf_ack_of_acknowledged (h : s.Taking .ack p r rest) (hn : s.Names r i q) (hmay : s.mayAck p q = true)
    {who : AckParty} (hstate : q.state = .acknowledged who) :
    serviceOf .ack p r.payload (s.removeRequest p) = (s.removeRequest p).okay [2#8] := by
  simp only [serviceOf, serveAck, h.gate_own, hn.handleFields, hn.named]
  rw [if_neg (by rw [show (s.removeRequest p).mayAck p q = true from hmay]; exact nofun), hstate]
  rfl

theorem serviceOf_ack_of_changed (h : s.Taking .ack p r rest) (hn : s.Names r i q) (hmay : s.mayAck p q = true)
    (hstate : ∀ who, q.state ≠ .acknowledged who) {t : State}
    (ht : (s.removeRequest p).acknowledge i (.port p) = t) :
    serviceOf .ack p r.payload (s.removeRequest p) = (t.arbitrate .byCut).okay [slotStateCode (t.record i)] := by
  simp only [serviceOf, serveAck, h.gate_own, hn.handleFields, hn.named]
  rw [if_neg (by rw [show (s.removeRequest p).mayAck p q = true from hmay]; exact nofun), ← ht]
  cases hq : q.state with
  | acknowledged who => exact absurd hq (hstate who)
  | _ => rfl

/-- Settles O17. -/
theorem ackActsByState : Obligations.AckActsByState := by
  intro s p r rest i q h hn
  obtain ⟨_, hq⟩ := id hn
  have hacked := State.acknowledge_eq (s.removeRequest p) i q (.port p) hq
  refine ⟨fun ha ho => h.refused mem_requestCommands_ack (serviceOf_ack_of_notOwner h hn ?_), fun hmay => ?_⟩
  · rw [← Bool.not_eq_true, State.mayAck_iff, not_or, Bool.not_eq_true]
    exact ⟨ha, ho⟩
  · have hmay : s.mayAck p q = true := State.mayAck_iff.mpr hmay
    refine ⟨fun ha => h.served mem_requestCommands_ack ?_, fun hr => h.served mem_requestCommands_ack ?_,
      fun ⟨who, hwho⟩ => h.served mem_requestCommands_ack (serviceOf_ack_of_acknowledged h hn hmay hwho)⟩
    · simp only [ha] at hacked
      rw [serviceOf_ack_of_changed h hn hmay (by simp [ha]) hacked, State.record_post, State.record_setRecord,
        if_pos rfl]
      rfl
    · simp only [hr] at hacked
      rw [serviceOf_ack_of_changed h hn hmay (by simp [hr]) hacked, State.record_freeRecord_self]
      rfl

end

end Sys2Proof.Machine
end


-- ==== Sys2Proof/Proofs/Reads.lean ====
section
/-! PROOF. The requests that only report (R81, R143, R145, R158), each payload where section 11.4 puts its fields, and
SUBSCRIBE (R150). -/

namespace Sys2Proof.Machine

section
variable {s : State} {p : Port} {r : Request} {rest : List Request}

theorem State.Taking.gate_any {k : Kind} (h : s.Taking k p r rest) (go : Answer) :
    (s.removeRequest p).gate p k r.payload anyRights go = go := h.gate rfl go

/-! ### ALERT_INFO (R143) -/

theorem Raiser.orphanBits_info (x : Raiser) :
    x.orphanBits 5 6 = match x with | .host _ orphaned => 32 + 64 * orphaned.toNat | .internal => 0 := by
  cases x with
  | internal => rfl
  | host o orphaned => cases orphaned <;> rfl

theorem alertInfoBytes_eq (generation : Byte) (q : Record) :
    alertInfoBytes generation q =
      [generation, q.origin.code] ++ bytes2 q.tag.toNat ++
        [byte q.pattern.val, byte q.base, byte q.ceiling, byte q.current, byte q.lamps.toNat,
         byte (q.latching.toNat + 2 * (match q.mode with | .continuous => 0 | .counted _ _ => 1) + 4 * q.muted.toNat +
           8 * q.soundDue.toNat + 16 * q.introDone.toNat +
           (match q.raiser with | .host _ orphaned => 32 + 64 * orphaned.toNat | .internal => 0)),
         byte (match q.mode with | .continuous => 0 | .counted n _ => n),
         byte (match q.mode with | .continuous => 0 | .counted _ left => left), byte q.interval] ++
        bytes3 (q.deadline.getD 0) ++ [q.state.code, q.state.ackedBy] := by
  simp only [alertInfoBytes, flagBit_eq, Raiser.orphanBits_info, Nat.reducePow, Nat.one_mul]
  cases q.mode <;> rfl

theorem exec_alertInfo (h : s.Taking .alertInfo p r rest) {i : SlotNo} {q : Record} (hn : s.Names r i q) :
    exec .alertInfo s = .next ((s.removeRequest p).answered p r (alertInfoBytes (s.slot i).generation q)) := by
  refine h.served (c := .alertInfo) (by decide) ?_
  simp only [serviceOf, serveAlertInfo, h.gate_any, hn.handleFields, hn.named]
  rfl

/-! ### PATTERN_INFO (R81) -/

theorem numberField_byte (n : PatNo) : numberField [byte n.val] = some n := patternField_byte n

theorem numberField_of_range {number : Byte} (h : 31 < number.toNat) : numberField [number] = none :=
  patternField_of_le h

theorem exec_patternInfo (h : s.Taking .patternInfo p r rest) {number : PatNo} (hp : r.payload = [byte number.val]) :
    exec .patternInfo s = .next ((s.removeRequest p).answered p r (patternInfoBytes (s.entry number))) := by
  refine h.served (c := .patternInfo) (by decide) ?_
  simp only [serviceOf, servePatternInfo, h.gate_any, hp ▸ numberField_byte number]
  rfl

theorem definerCode_eq (d : Definer) : definerCode d = match d with | some o => byte o.val | none => 7#8 := by
  cases d <;> rfl

/-! ### STATUS (R145) -/

theorem Session.sum_codes (x : Port → Session) :
    ((List.finRange 4).map fun p => (x p).code.toNat * 4 ^ p.val).sum =
      (x 0).code.toNat + 4 * (x 1).code.toNat + 16 * (x 2).code.toNat + 64 * (x 3).code.toNat := by
  have h : List.finRange 4 = [0, 1, 2, 3] := by decide
  simp only [h, List.map_cons, List.map_nil, List.sum_cons, List.sum_nil, Fin.isValue, Fin.coe_ofNat_eq_mod,
    Nat.reduceMod, Nat.reducePow]
  omega

theorem exec_status (h : s.Taking .status p r rest) :
    exec .status s = .next ((s.removeRequest p).answered p r (s.removeRequest p).statusBytes) := by
  refine h.served (c := .status) (by decide) ?_
  simp only [serviceOf, serveStatus, h.gate_any]

theorem Play.statusBytes_eq (play : Play) :
    play.statusBytes =
      match play with
      | .idle => [0#8, 0xFF#8, 0#8]
      | .playing owner _ => [1#8, byte owner.slot.val, owner.generation]
      | .tail _ => [2#8, 0xFF#8, 0#8] := by
  cases play <;> rfl

theorem State.headBytes_eq (s : State) :
    handleOrAbsent (s.head.map s.handleOf) =
      match s.order.head? with
      | some i => [byte i.val, (s.slot i).generation]
      | none => [0xFF#8, 0#8] := by
  rw [State.head]
  cases s.order.head? <;> rfl

theorem Line.code_eq (line : Line) :
    line.code = match line with | .normal _ => 0#8 | .fault .openLine _ => 1#8 | .fault .short _ => 2#8 := by
  obtain _ | ⟨_ | _, _⟩ := line <;> rfl

theorem State.statusBytes_eq (s : State) :
    s.statusBytes =
      (match s.play with
        | .idle => [0#8, 0xFF#8, 0#8]
        | .playing owner _ => [1#8, byte owner.slot.val, owner.generation]
        | .tail _ => [2#8, 0xFF#8, 0#8]) ++
      (match s.order.head? with
        | some i => [byte i.val, (s.slot i).generation]
        | none => [0xFF#8, 0#8]) ++
      [match s.line with | .normal _ => 0#8 | .fault .openLine _ => 1#8 | .fault .short _ => 2#8] ++
      bytes2 (s.free.map Extent.length).sum ++ bytes2 s.freeLargest ++
      [byte ((List.finRange 30).countP (fun i => (s.record i).isSome)),
        byte ((s.port 0).session.code.toNat + 4 * (s.port 1).session.code.toNat +
          16 * (s.port 2).session.code.toNat + 64 * (s.port 3).session.code.toNat)] ++
      bytes3 (s.mute.getD 0) := by
  rw [State.statusBytes, State.sessionsByte, Session.sum_codes fun p => (s.port p).session, Play.statusBytes_eq,
    State.headBytes_eq, Line.code_eq] <;> rfl

theorem State.statusBytes_removeRequest (s : State) (p : Port) : (s.removeRequest p).statusBytes = s.statusBytes := by
  have hsessions : (s.removeRequest p).sessionsByte = s.sessionsByte := by
    simp only [State.sessionsByte, State.removeRequest_session]
  rw [State.statusBytes, hsessions]
  rfl

/-! ### CONFIG_GET (R158) -/

theorem Params.value_eq_none_iff (c : Params) (id : Nat) : c.value id = none ↔ id = 0 ∨ 13 < id := by
  constructor
  · intro h
    by_contra hid
    rw [not_or, not_lt] at hid
    obtain ⟨h0, h13⟩ := hid
    interval_cases id <;> simp [Params.value] at h h0
  · intro h
    unfold Params.value
    split
    case h_14 => rfl
    all_goals omega

theorem exec_configGet (h : s.Taking .configGet p r rest) {id : Byte} (hp : r.payload = [id]) {v : Nat}
    (hv : s.params.value id.toNat = some v) :
    exec .configGet s = .next ((s.removeRequest p).answered p r (id :: bytes2 v)) := by
  refine h.served (c := .configGet) (by decide) ?_
  simp only [serviceOf, serveConfigGet, h.gate_any]
  simp only [hp, State.removeRequest_params, hv]

theorem exec_configGet_of_unknown (h : s.Taking .configGet p r rest) {id : Byte} (hp : r.payload = [id])
    (hv : s.params.value id.toNat = none) :
    exec .configGet s = .next ((s.removeRequest p).refusedWith p r .badValue []) := by
  refine h.refused (c := .configGet) (by decide) ?_
  simp only [serviceOf, serveConfigGet, h.gate_any]
  simp only [hp, State.removeRequest_params, hv]
  rfl

theorem Params.value_table (c : Params) :
    c.value 1 = some c.keepalive ∧ c.value 2 = some c.mutePeriod ∧ c.value 3 = some c.urgent ∧
    c.value 4 = some c.quota ∧ c.value 5 = some c.portLostPrio ∧ c.value 6 = some c.sounderFaultPrio ∧
    c.value 7 = some c.storeFaultPrio ∧ c.value 8 = some (if c.lineEnable = true then 1 else 0) ∧
    c.value 9 = some c.senseLow ∧ c.value 10 = some c.senseHigh ∧
    c.value 11 = some (match c.substitute with | some k => k.val | none => 4) ∧
    c.value 12 = some (if c.panelEnable = true then 1 else 0) ∧ c.value 13 = some c.profile.val := by
  have hflag : ∀ b : Bool, some b.toNat = some (if b = true then 1 else 0) := by decide
  exact ⟨rfl, rfl, rfl, rfl, rfl, rfl, rfl, hflag _, rfl, rfl, rfl, hflag _, rfl⟩

/-- Settles O45. -/
theorem readsReportAndChangeNothing : Obligations.ReadsReportAndChangeNothing := by
  refine ⟨fun s p r rest i q h hn => ?_, fun s p r rest number h hp => ?_, fun s p r rest number h hp hrange => ?_,
    fun s p r rest h => ?_, fun s p r rest id h hp => ?_, fun c => ?_⟩
  · rw [exec_alertInfo h hn, alertInfoBytes_eq] <;> rfl
  · have hanswer := exec_patternInfo h hp
    refine ⟨fun he => ?_, fun l fill he => ?_, fun l he => ?_, fun l he => ?_⟩ <;>
      · rw [hanswer, patternInfoBytes, he]
        simp only [definerCode_eq] <;> rfl
  · refine h.refused (c := .patternInfo) (by decide) ?_
    simp only [serviceOf, servePatternInfo, h.gate_any, hp ▸ numberField_of_range hrange]
    rfl
  · rw [exec_status h, State.statusBytes_removeRequest, State.statusBytes_eq] <;> rfl
  · have hnone := s.params.value_eq_none_iff id.toNat
    refine ⟨fun v hv => exec_configGet h hp hv, fun hid => exec_configGet_of_unknown h hp (hnone.mpr hid),
      fun h1 h13 => ?_⟩
    rw [Option.isSome_iff_ne_none, Ne, hnone]
    omega
  · obtain ⟨h1, h2, h3, h4, h5, h6, h7, h8, h9, h10, h11, h12, h13⟩ := c.value_table
    exact ⟨h1, h2, h3, h4, h5, h6, h7, h8, h9, h10, h11, h12, h13, fun id => (c.value_eq_none_iff id).mpr⟩

/-! ### SUBSCRIBE (R150) -/

theorem subscribeFields_of_inRange {mask attention : Byte} (hm : mask.toNat ≤ 7) (ha : attention.toNat ≤ 1) :
    subscribeFields [mask, attention] = some
      ({ others := mask.getLsbD 0, sound := mask.getLsbD 1, system := mask.getLsbD 2 }, decide (attention = 1#8)) := by
  have hbit : decide (attention.toNat = 1) = decide (attention = 1#8) := decide_eq_decide.mpr (by
    rw [BitVec.toNat_eq]
    rfl)
  rw [subscribeFields, if_neg (by omega), hbit]

theorem subscribeFields_of_range {mask attention : Byte} (h : 7 < mask.toNat ∨ 1 < attention.toNat) :
    subscribeFields [mask, attention] = none := if_pos h

/-- Settles O40. -/
theorem subscribeReplacesSubscription : Obligations.SubscribeReplacesSubscription := by
  intro s p r rest mask attention h hp
  obtain ⟨⟨hinbound, _⟩, _⟩ := id h
  refine ⟨fun hm ha => h.served (c := .subscribe) (by decide) ?_, fun hr => h.refused (c := .subscribe) (by decide) ?_⟩
  · simp only [serviceOf, serveSubscribe, h.gate_any, hp ▸ subscribeFields_of_inRange hm ha, State.removeRequest_port,
      if_pos, hinbound, List.tail_cons]
    rw [hp]
  · simp only [serviceOf, serveSubscribe, h.gate_any, hp ▸ subscribeFields_of_range hr]
    rfl

end

end Sys2Proof.Machine
end


-- ==== Sys2Proof/Proofs/ConfigSet.lean ====
section
/-! PROOF. CONFIG_SET (R112, R159, R160): what a write of one parameter comes to, and what the line monitor enable
brings about when it changes. -/

namespace Sys2Proof.Machine

/-! ### One parameter written (R159, Table 10.1) -/

/-- The value is in the range of the parameter that this identifier names, with the sense thresholds in order. -/
def Params.Accepts (c : Params) (id v : Nat) : Prop :=
  match id with
  | 1 => v ≤ 255
  | 2 => v ≤ 3600
  | 3 => 2 ≤ v ∧ v ≤ 8
  | 4 => 1 ≤ v ∧ v ≤ 24
  | 5 | 6 | 7 => 1 ≤ v ∧ v ≤ 7
  | 8 | 12 => v ≤ 1
  | 9 => v ≤ 255 ∧ v ≤ c.senseHigh
  | 10 => v ≤ 255 ∧ c.senseLow ≤ v
  | 11 => v ≤ 4
  | _ => False

/-- The substitute lamp that a value names: 0 to 3 for L0 to L3, otherwise NONE (R100). -/
def lampNamed (v : Nat) : Option Lamp :=
  match v with
  | 0 => some 0
  | 1 => some 1
  | 2 => some 2
  | 3 => some 3
  | _ => none

/-- The parameters with the one that this identifier names set to the value. -/
def Params.written (c : Params) (id v : Nat) : Params :=
  match id with
  | 1 => { c with keepalive := v }
  | 2 => { c with mutePeriod := v }
  | 3 => { c with urgent := v }
  | 4 => { c with quota := v }
  | 5 => { c with portLostPrio := v }
  | 6 => { c with sounderFaultPrio := v }
  | 7 => { c with storeFaultPrio := v }
  | 8 => { c with lineEnable := decide (v = 1) }
  | 9 => { c with senseLow := v }
  | 10 => { c with senseHigh := v }
  | 11 => { c with substitute := lampNamed v }
  | 12 => { c with panelEnable := decide (v = 1) }
  | _ => c

theorem lampValue_eq_lampNamed {v : Nat} (h : v ≤ 4) : lampValue v = lampNamed v := by
  interval_cases v <;> rfl

section
variable {c : Params} {id v : Nat}

theorem Params.write_of_accepts (h : c.Accepts id v) : c.write id v = some (c.written id v) := by
  unfold Params.Accepts at h
  split at h
  case h_12 => rw [Params.write, if_pos h, lampValue_eq_lampNamed h, Params.written]
  all_goals exact if_pos h

theorem Params.write_of_not_accepts (h : ¬ c.Accepts id v) : c.write id v = none := by
  unfold Params.write
  split
  case h_13 => rfl
  all_goals exact if_neg h

theorem Params.value_written (h : c.Accepts id v) : (c.written id v).value id = some v := by
  have hflag : ∀ v, v ≤ 1 → (decide (v = 1)).toNat = v := fun v hv => by interval_cases v <;> rfl
  unfold Params.Accepts at h
  split at h
  all_goals
    first
    | rfl
    | exact congrArg some (hflag v h)
    | exact h.elim
    | interval_cases v <;> rfl

theorem Params.value_written_other {other : Nat} (h : other ≠ id) : (c.written id v).value other = c.value other := by
  unfold Params.written
  split
  all_goals
    first
    | rfl
    | unfold Params.value
      split <;> first | rfl | exact absurd rfl h

end

/-! ### What the enable brings about (R112) -/

theorem State.followEnable_same {s : State} {before : Bool} (h : s.params.lineEnable = before) :
    s.followEnable before = s := by
  unfold State.followEnable
  rw [h]
  cases before <;> rfl

theorem State.followEnable_on {s : State} (h : s.params.lineEnable = true) :
    s.followEnable false = State.setLine { s with lineTimer := some 100 } (.normal 0) := by
  unfold State.followEnable
  rw [h]

theorem State.followEnable_off {s : State} (h : s.params.lineEnable = false) :
    s.followEnable true =
      if s.line.isFault = true then State.clearFault { s with lineTimer := none }
      else State.setLine { s with lineTimer := none } (.normal 0) := by
  unfold State.followEnable
  rw [h]

/-! ### The request (R160) -/

section
variable {s : State} {p : Port} {r : Request} {rest : List Request} {id hi lo : Byte}

theorem number2_comm (hi lo : Byte) : number2 hi lo = 256 * hi.toNat + lo.toNat := by
  rw [number2, Nat.mul_comm]

theorem serviceOf_configSet_of_profile (h : s.Taking .configSet p r rest) (hp : r.payload = [13#8, hi, lo]) :
    serviceOf .configSet p r.payload (s.removeRequest p) = (s.removeRequest p).refuse .noRight := by
  obtain ⟨_, _, hlength, hopen⟩ := h
  simp only [serviceOf]
  unfold serveConfigSet
  rw [State.gate, if_neg (by simp [hlength]),
    if_neg (by rw [State.removeRequest_session, hopen]; exact not_not.mpr rfl), if_pos (by simp [hp])]

theorem State.Taking.gate_configSet (h : s.Taking .configSet p r rest) (hc : (s.rights p).c = true)
    (hp : r.payload = [id, hi, lo]) (hid : id ≠ 13#8) (go : Answer) :
    (s.removeRequest p).gate p .configSet r.payload (fun x => x.c && decide (r.payload.head? ≠ some 13#8)) go = go :=
  h.gate (by simp [hc, hp, hid]) go

theorem serviceOf_configSet_of_range (h : s.Taking .configSet p r rest) (hc : (s.rights p).c = true)
    (hp : r.payload = [id, hi, lo]) (hid : id ≠ 13#8) (hv : s.params.write id.toNat (number2 hi lo) = none) :
    serviceOf .configSet p r.payload (s.removeRequest p) = (s.removeRequest p).refuse .badValue := by
  simp only [serviceOf]
  unfold serveConfigSet
  rw [h.gate_configSet hc hp hid, hp]
  simp only [State.removeRequest_params, hv]

theorem serviceOf_configSet_of_written (h : s.Taking .configSet p r rest) (hc : (s.rights p).c = true)
    (hp : r.payload = [id, hi, lo]) (hid : id ≠ 13#8) {params : Params}
    (hv : s.params.write id.toNat (number2 hi lo) = some params) :
    serviceOf .configSet p r.payload (s.removeRequest p) =
      State.okay (State.followEnable { s.removeRequest p with params := params } s.params.lineEnable) [id, hi, lo] := by
  simp only [serviceOf]
  unfold serveConfigSet
  rw [h.gate_configSet hc hp hid, hp]
  simp only [State.removeRequest_params, hv]

/-- Settles O47. -/
theorem configSetWritesOneParameter : Obligations.ConfigSetWritesOneParameter := by
  intro s p r rest id hi lo h hc hp v inRange
  have hnumber : number2 hi lo = v := number2_comm hi lo
  have hmem : (Instr.configSet, Kind.configSet) ∈ requestCommands := by decide
  refine ⟨?_, fun hid hr => ?_, fun (hr : s.params.Accepts id.toNat v) => ?_⟩
  · rintro rfl
    exact h.refused hmem (serviceOf_configSet_of_profile h hp)
  · exact h.refused hmem
      (serviceOf_configSet_of_range h hc hp hid (hnumber ▸ Params.write_of_not_accepts hr))
  · have hid : id ≠ 13#8 := by
      rintro rfl
      exact hr
    have hserved := serviceOf_configSet_of_written h hc hp hid (hnumber ▸ Params.write_of_accepts hr)
    rw [hnumber] at hserved
    refine ⟨Params.value_written hr, fun other => Params.value_written_other, fun hsame => ?_, fun hoff hon => ?_,
      fun hon hoff => ?_⟩
    · refine h.served hmem (hserved.trans ?_)
      rw [State.followEnable_same hsame]
      rfl
    · refine h.served hmem (hserved.trans ?_)
      rw [hoff, State.followEnable_on hon]
      rfl
    · refine h.served hmem (hserved.trans ?_)
      rw [hon, State.followEnable_off hoff]
      rfl

end

end Sys2Proof.Machine
end


-- ==== Sys2Proof/Proofs/Expiries.lean ====
section
/-! PROOF. The tick (R162), the internal records (R21, R22), and the expiries of an escalation deadline and of the mute
timer (R15, R46). -/

namespace Sys2Proof.Machine

/-! ### The tick -/

section
variable {s : State}

theorem State.not_ticking (h : s.clkin = false ∨ s.inReset = true) : ¬ s.ticking = true := by
  rw [State.ticking_iff]
  rintro ⟨hclkin, hreset⟩
  obtain h | h := h <;> simp_all

theorem exec_unchanged_of_not_ticking (h : ¬ s.ticking = true) :
    exec .tick s = .next s ∧ exec .flashClockTick s = .next s ∧
      ∀ ackPin silencePin testPin, exec (.debounceSample ackPin silencePin testPin) s = .next s :=
  ⟨congrArg Host.Outcome.next (if_neg h), congrArg Host.Outcome.next (if_neg h),
    fun _ _ _ => congrArg Host.Outcome.next (if_neg h)⟩

theorem State.advance_eq (s : State) :
    { s.advance with
      play := s.play, mute := s.mute, lineTimer := s.lineTimer, slots := s.slots, ports := s.ports
      substituteRole := s.substituteRole, driveMs := s.driveMs } = s := by
  simp only [State.advance]

theorem State.slot_advance_parts (s : State) (i : SlotNo) :
    (s.advance.slot i).generation = (s.slot i).generation ∧
      s.advance.record i =
        (s.record i).map fun r => { r with deadline := r.deadline.map fun left => left - 1 } :=
  ⟨by rw [s.slot_advance]; rfl, s.record_advance i⟩

/-- Settles O5. -/
theorem tickAdvancesTimers : Obligations.TickAdvancesTimers := by
  refine ⟨fun s hclkin hreset => ⟨s.advance, execTick_ticking hclkin hreset, ?_⟩,
    fun s h => exec_unchanged_of_not_ticking (State.not_ticking h), fun s => ⟨rfl, rfl⟩⟩
  have hplay := s.advance_play
  refine ⟨fun h => ?_, fun owner now h => ?_, fun now h => ?_, ?_, ?_, s.slot_advance_parts, s.port_advance, ?_,
    s.advance_eq⟩
  · rw [hplay, h]; rfl
  · rw [hplay, h]; rfl
  · rw [hplay, h]; rfl
  all_goals simp only [State.advance] <;> rfl

end

/-! ### Internal records (R21, R22) -/

section
variable {s : State} {i : SlotNo} {q : Record}

theorem State.internalRaise_of_free (h : s.record i = none) (f : RaiseFields) :
    s.internalRaise i f = (s.createRecord i .internal f .internal, true) := by
  simp only [State.internalRaise, h]

theorem State.internalRaise_of_alerting (h : s.record i = some q) (hq : q.state = .alerting) (f : RaiseFields) :
    s.internalRaise i f = (s, false) := by
  simp only [State.internalRaise, h, Record.isAlerting, hq, decide_true, if_pos]

theorem State.internalRaise_of_other (h : s.record i = some q) (hq : q.state ≠ .alerting) (f : RaiseFields) :
    s.internalRaise i f = (s.realertRecord i q f .internal, true) := by
  simp only [State.internalRaise, h, Record.isAlerting, hq, decide_false, Bool.false_eq_true, if_false]

theorem State.internalReturn_of_free (h : s.record i = none) : s.internalReturn i = (s, false) := by
  simp only [State.internalReturn, h]

theorem State.internalReturn_of_alerting (h : s.record i = some q) (hq : q.state = .alerting) :
    s.internalReturn i = (s.returnRecord i q .internal, true) := by
  simp only [State.internalReturn, h, hq]

theorem State.internalReturn_of_acknowledged (h : s.record i = some q) {who : AckParty}
    (hq : q.state = .acknowledged who) : s.internalReturn i = (s.freeRecord i .internal, true) := by
  simp only [State.internalReturn, h, hq]

theorem State.internalReturn_of_returned (h : s.record i = some q) (hq : q.state = .returned) :
    s.internalReturn i = (s, false) := by
  simp only [State.internalReturn, h, hq]

/-- Settles O18. -/
theorem internalRecordsFollowTheirCause : Obligations.InternalRecordsFollowTheirCause := by
  intro s i f
  refine ⟨fun h => ⟨?_, State.internalReturn_of_free h⟩, fun q h hinternal => ⟨fun hq => ⟨?_, ?_⟩, fun hq => ?_, ?_, ?_⟩⟩
  · rw [State.internalRaise_of_free h, State.createRecord_eq]
    rfl
  · exact State.internalRaise_of_alerting h hq f
  · rw [State.internalReturn_of_alerting h hq, State.returnRecord_eq]
  · rw [State.internalRaise_of_other h hq, State.realertRecord_eq, hinternal, Record.origin_of_internal hinternal]
    rfl
  · rintro ⟨who, hq⟩
    exact State.internalReturn_of_acknowledged h hq
  · exact State.internalReturn_of_returned h

end

/-! ### The escalation of a record (R15) -/

section
variable {s : State} {i : SlotNo} {q : Record}

theorem Record.escalationDue_iff (q : Record) :
    q.escalationDue = true ↔ q.deadline = some 0 ∧ q.state = .alerting ∧ q.current < q.ceiling := by
  simp [Record.escalationDue, Record.isAlerting, and_assoc]

theorem exec_escalationExpiry (s : State) (i : SlotNo) : exec (.escalationExpiry i.val) s = .next (s.escalate i) :=
  dif_pos i.isLt

theorem State.escalate_of_due (h : s.record i = some q) (hd : q.escalationDue = true) :
    s.escalate i =
      (State.post (s.setRecord i q.escalated)
        (.record .escalated { s.about i q with priority := q.current + 1 } .timer)).arbitrate .byRelease := by
  simp only [State.escalate, h, hd, if_true]
  rw [State.postRecord_eq _ _ i q.escalated .timer (s.handleOf i) (State.handleOf_setRecord s i i _)]
  rfl

theorem State.escalate_of_not_due (h : ∀ q, s.record i = some q → ¬ q.escalationDue = true) : s.escalate i = s := by
  cases hq : s.record i with
  | none => simp only [State.escalate, hq]
  | some q => simp only [State.escalate, hq, h q hq, Bool.false_eq_true, if_false]

theorem Record.escalated_eq (q : Record) :
    q.escalated =
      { q with
        current := q.current + 1, muted := false, soundDue := true
        mode := match q.mode with | .continuous => .continuous | .counted n _ => .counted n n
        deadline := if q.interval ≠ 0 ∧ q.current + 1 < q.ceiling then some (q.interval * 1000) else none } := by
  rw [Record.escalated, startedDeadline]
  cases q.mode <;> rfl

/-! ### The mute timer (R46) -/

theorem exec_muteTimerExpiry (h : s.mute = some 0) : exec .muteTimerExpiry s = .next s.resound :=
  congrArg Host.Outcome.next (if_pos h)

theorem State.slot_unmuteRecords (s : State) (i : SlotNo) :
    (s.unmuteRecords.slot i).generation = (s.slot i).generation ∧
      s.unmuteRecords.record i = (s.record i).map fun r => { r with muted := false } :=
  ⟨by rw [State.unmuteRecords, s.slot_mapRecords], s.record_mapRecords _ i⟩

theorem State.unmuteRecords_eq (s : State) : s.unmuteRecords = { s with slots := s.unmuteRecords.slots } :=
  s.mapRecords_eq _

/-- Settles O19. -/
theorem escalationAndMuteExpiriesAct : Obligations.EscalationAndMuteExpiriesAct := by
  refine ⟨fun s i q h hd ha hc => ?_, fun s slot h => dif_neg (by omega), fun s i h => ?_, fun s h => ?_,
    fun s h => ⟨State.unmuteRecords { s with mute := none }, State.slot_unmuteRecords _, ?_, ?_, ?_⟩⟩
  · rw [exec_escalationExpiry, State.escalate_of_due h (q.escalationDue_iff.mpr ⟨hd, ha, hc⟩), Record.escalated_eq]
      <;> rfl
  · rw [exec_escalationExpiry, State.escalate_of_not_due]
    intro q hq hdue
    obtain ⟨hd, ha, hc⟩ := q.escalationDue_iff.mp hdue
    obtain hd' | ha' | hc' := h q hq
    exacts [hd' hd, ha' ha, absurd hc (by omega)]
  · exact congrArg Host.Outcome.next (if_neg h)
  · rw [State.unmuteRecords_eq, ← h]
  · rw [State.unmuteRecords_eq]
  · rw [exec_muteTimerExpiry h]
    rfl

end

end Sys2Proof.Machine
end


-- ==== Sys2Proof/Proofs/Decisions.lean ====
section
/-! PROOF. The Output Arbiter's decisions (R35 to R42), the silence action (R44, R45) and the start of a tenure (R55,
R56): each case of a decision, of a step load and of a tenure's start said once. -/

namespace Sys2Proof.Machine

/-! ### Decisions, case by case (R35 to R42) -/

section
variable {s : State} {leaving : Leaving} {owner : Handle} {now : Sounding}

theorem State.arbitrate_of_idle (h : s.play = .idle) : s.arbitrate leaving = s.startHead := by
  simp only [State.arbitrate, h]

theorem State.arbitrate_of_tail (h : s.play = .tail now) :
    s.arbitrate leaving = if s.headUrgent then s.cut.startHead else s := by
  simp only [State.arbitrate, h]
  rfl

theorem State.arbitrate_of_standing (h : s.play = .playing owner now) (hs : s.ownerStands owner = true) :
    s.arbitrate leaving = if s.headAbove owner && s.headUrgent then s.cut.startHead else s := by
  simp only [State.arbitrate, h, hs, if_true]

theorem State.arbitrate_byCut (h : s.play = .playing owner now) (hs : s.ownerStands owner = false) :
    s.arbitrate .byCut = s.cut.startHead := by
  simp only [State.arbitrate, h, hs, Bool.false_eq_true, if_false]

theorem State.release_of_playing (h : s.play = .playing owner now) : s.release = s.setPlay (.tail now) := by
  simp only [State.release, h]

theorem State.headUrgent_setPlay (play : Play) : (s.setPlay play).headUrgent = s.headUrgent :=
  State.headUrgent_congr (s.setPlay_slots play) (s.setPlay_arrival play) (s.setPlay_params play)

theorem State.arbitrate_byRelease (h : s.play = .playing owner now) (hs : s.ownerStands owner = false) :
    s.arbitrate .byRelease = if s.headUrgent then s.release.cut.startHead else s.release := by
  simp only [State.arbitrate, h, hs, Bool.false_eq_true, if_false, State.arbitrateTail, State.release_of_playing h,
    State.headUrgent_setPlay]

theorem State.setPlay_of_drive {play : Play} (h : wantedDrive play s.line = s.drive) :
    s.setPlay play = { s with play := play } := by
  unfold State.setPlay State.followDrive
  exact if_pos h

/-- Settles O21. -/
theorem arbiterDecides : Obligations.ArbiterDecides := by
  refine ⟨fun s leaving => ?_, fun s => ⟨s.setPlay_play .idle, s.setPlay_drive .idle, ?_⟩, fun s owner now h hd => ?_⟩
  · have hurgent := s.headUrgent_iff
    refine ⟨State.arbitrate_of_idle, State.startHead_of_order_nil, fun now h => ?_, fun owner now h => ?_⟩
    · rw [State.arbitrate_of_tail h, ← hurgent]
      exact ⟨fun hu => if_pos hu, fun hu => if_neg hu⟩
    · have habove := s.headAbove_iff owner
      refine ⟨fun hs => ?_, fun hs => ⟨State.arbitrate_byCut h hs, ?_⟩⟩
      · rw [State.arbitrate_of_standing h hs, ← hurgent, ← habove, ← Bool.and_eq_true]
        exact ⟨fun hu => if_pos hu, fun hu => if_neg hu⟩
      · rw [State.arbitrate_byRelease h hs, ← hurgent]
        exact ⟨fun hu => if_pos hu, fun hu => if_neg hu⟩
  · rw [State.cut, State.setPlay_eq]
  · rw [State.release_of_playing h, State.setPlay_of_drive]
    rw [hd, h]
    rfl

end

/-! ### The silence action (R44, R45) -/

section
variable {s : State} {p : Port} {r : Request} {rest : List Request}

theorem State.hush_eq (s : State) : s.hush = if s.play = .idle then s else s.cut.startHead := by
  unfold State.hush
  cases s.play <;> rfl

/-- The silence action acts on s with this source and leaves t (R44, R45). -/
theorem State.silenceAction_parts (s : State) (source : Source) :
    s.silenceAction source =
      State.post
        { (if s.play = .idle then s.muteRecords s.silenceLevel else (s.muteRecords s.silenceLevel).cut.startHead) with
          mute := if s.params.mutePeriod = 0 then none else some (s.params.mutePeriod * 1000) }
        (.silenced source s.silenceLevel (s.mutedCount s.silenceLevel)) := by
  have hparams : (s.muteRecords s.silenceLevel).hush.params = s.params :=
    (Quiets.acts ((quiets_muteRecords s _).trans (quiets_hush _))).frame.params
  have hplay : (s.muteRecords s.silenceLevel).play = s.play := by rw [State.muteRecords, State.mapRecords_eq]
  rw [State.silenceAction_eq, hparams, State.hush_eq, hplay]
  rfl

theorem State.slot_muteRecords (s : State) (level : Nat) (i : SlotNo) :
    ((s.muteRecords level).slot i).generation = (s.slot i).generation ∧
      (s.muteRecords level).record i =
        (s.record i).map fun r => if r.selected level then { r with muted := true } else r :=
  ⟨by rw [State.muteRecords, State.slot_mapRecords], s.record_mapRecords _ i⟩

theorem State.muteRecords_slots (s : State) (level : Nat) : { s.muteRecords level with slots := s.slots } = s := by
  rw [State.muteRecords, State.mapRecords_eq]

theorem exec_silence (h : s.Taking .silence p r rest) (ha : (s.rights p).a = true) :
    exec .silence s = .next
      (((s.removeRequest p).silenceAction (.port p)).answered p r
        [byte s.silenceLevel, byte (s.mutedCount s.silenceLevel)]) := by
  refine h.served (c := .silence) (by decide) ?_
  simp only [serviceOf, serveSilence, h.gate ha]
  rfl

theorem exec_panelSilence (h : s.panel.silence.accepted = some .press) (he : s.params.panelEnable = true) :
    exec .panelSilence s = .next
      (State.silenceAction { s with panel := { s.panel with silence := { s.panel.silence with accepted := none } } }
        .panel) := by
  change execPanelSilence s = _
  simp only [execPanelSilence, if_pos h, if_pos he]
  rfl

/-- From s to t a silence action with this source has been carried out (R44, R45). -/
def State.Silences (s : State) (source : Source) (t : State) : Prop :=
  ∃ s1 : State,
    (∀ i, (s1.slot i).generation = (s.slot i).generation ∧
      s1.record i = (s.record i).map fun r => if r.selected s.silenceLevel then { r with muted := true } else r) ∧
    { s1 with slots := s.slots } = s ∧
    t = State.post
      { (if s.play = .idle then s1 else s1.cut.startHead) with
        mute := if s.params.mutePeriod = 0 then none else some (s.params.mutePeriod * 1000) }
      (.silenced source s.silenceLevel (s.mutedCount s.silenceLevel))

theorem State.silences (s : State) (source : Source) : s.Silences source (s.silenceAction source) :=
  ⟨s.muteRecords s.silenceLevel, s.slot_muteRecords _, s.muteRecords_slots _, s.silenceAction_parts source⟩

/-- Settles O22. -/
theorem silenceMutesAndCuts : Obligations.SilenceMutesAndCuts :=
  ⟨fun s p _ _ h ha => ⟨_, (s.removeRequest p).silences (.port p), exec_silence h ha⟩,
    fun _ h he => ⟨_, State.silences _ .panel, exec_panelSilence h he⟩⟩

end

end Sys2Proof.Machine
end


-- ==== Sys2Proof/Proofs/StepLoads.lean ====
section
/-! PROOF. What a step load finds (R53, R65, R66), and the start of a tenure (R55, R56). -/

namespace Sys2Proof.Machine

section
variable {s : State} {i : SlotNo} {q : Record} {l : Layout} {n : PatNo} {index : Nat} {st : Step}

/-! ### What a load finds (R53) -/

/-- The step at an index of a pattern with these fields, where it is read with good parity: from the fixed steps of a
built-in pattern, and from the Step Store for any other (R53). -/
def State.Reads (s : State) (n : PatNo) (l : Layout) (index : Nat) (st : Step) : Prop :=
  if isBuiltIn n then (builtInSteps n)[index]? = some st
  else ∃ start, l.start = some start ∧ (s.word (start + index)).good = true ∧ (s.word (start + index)).step = st

theorem State.Reads.loadStep (h : s.Reads n l index st) (hb : (s.entry n).body = .ready l) :
    s.loadStep n index = .good st l.pace := by
  unfold State.Reads at h
  simp only [State.loadStep, hb]
  split at h
  case isTrue hbuilt =>
    rw [if_pos hbuilt, builtInStep, List.getD_eq_getElem?_getD, h, Option.getD_some]
  case isFalse huser =>
    obtain ⟨start, hstart, hgood, hstep⟩ := h
    simp only [huser, hstart, Option.getD_some, hgood, hstep, Bool.false_eq_true, if_false, if_true]

theorem State.loadStep_of_damaged (hb : (s.entry n).body = .damaged l) : s.loadStep n index = .damaged := by
  simp only [State.loadStep, hb]

theorem State.loadStep_of_badWord (hu : isBuiltIn n = false) (hb : (s.entry n).body = .ready l) {start : Nat}
    (hl : l.start = some start) (hw : (s.word (start + index)).good = false) : s.loadStep n index = .badParity := by
  simp only [State.loadStep, hb, hu, hl, Option.getD_some, hw, Bool.false_eq_true, if_false]

theorem State.loadStep_congr {t : State} (he : (t.entry n).body = (s.entry n).body) (hs : t.store = s.store) :
    t.loadStep n index = s.loadStep n index := by
  unfold State.loadStep State.word
  rw [he, hs]

/-! ### What the owner does with it (R53, R65, R66) -/

theorem State.loadOwner_of_good {pace : Nat} (hq : s.record i = some q) (h : s.loadStep q.pattern index = .good st pace) :
    s.loadOwner i index = (s.sound (s.handleOf i) q.pattern index st pace, false) := by
  simp only [State.loadOwner, hq, h]

theorem State.fallBack_eq (hq : s.record i = some q) : s.fallBack i = s.fellBack i q := by
  have hhandle : (s.switchToFallback i).handleOf i = s.handleOf i := by
    rw [State.handleOf, State.slot_switchToFallback, if_pos rfl]
    rfl
  rw [State.fallBack]
  rw [hhandle, State.switchToFallback_of_record s hq]
  rfl

theorem State.loadOwner_of_damaged (hq : s.record i = some q) (h : s.loadStep q.pattern index = .damaged) :
    s.loadOwner i index = (s.fellBack i q, false) := by
  simp only [State.loadOwner, hq, h, State.fallBack_eq hq]

theorem State.loadOwner_of_badParity (hq : s.record i = some q) (h : s.loadStep q.pattern index = .badParity) :
    s.loadOwner i index =
      ((s.markDamaged q.pattern .internal).1.fallBack i, (s.markDamaged q.pattern .internal).2) := by
  simp only [State.loadOwner, hq, h]

theorem State.afterLoad_of_quiet (t : State) : State.afterLoad (t, false) = t := rfl

/-! ### The start of a tenure (R55, R56) -/

theorem State.beginTenure_eq (hq : s.record i = some q) :
    s.beginTenure i =
      ((s.loadOwner i (s.startIndex q)).1.post
        (.sound .sounding ((s.loadOwner i (s.startIndex q)).1.refTo i q)), (s.loadOwner i (s.startIndex q)).2) := by
  simp only [State.beginTenure, hq]

theorem State.startOnce_of_order {others : List SlotNo} (h : s.order = i :: others) : s.startOnce = s.beginTenure i := by
  have hhead : s.head = some i := by rw [State.head, h]; rfl
  simp only [State.startOnce, hhead]

theorem State.refTo_of_slot {t : State} (h : (t.slot i).generation = (s.slot i).generation) :
    t.refTo i q = s.about i q := by
  rw [State.refTo_eq, State.about, h]
  rfl

theorem State.generation_fellBack (i j : SlotNo) (q : Record) :
    ((s.fellBack i q).slot j).generation = (s.slot j).generation := by
  rw [State.fellBack, State.slot_setPlay]
  change ((s.setSlot i _).slot j).generation = _
  rw [State.slot_setSlot]
  split_ifs with h
  · rw [h]
  · rfl

theorem State.startIndex_of_layout (hb : (s.entry q.pattern).body.layout = some l) :
    s.startIndex q = if q.introDone then l.loopIndex else 0 := by
  rw [State.startIndex, hb]
  rfl

/-- Settles O23. -/
theorem tenureStarts : Obligations.TenureStarts := by
  intro s i others q l leaving hidle horder hq owner sounding
  have hstart : s.arbitrate leaving = State.afterLoad (s.beginTenure i) := by
    rw [State.arbitrate_of_idle hidle, State.startHead, State.startOnce_of_order horder]
  refine ⟨fun st hb (hreads : s.Reads q.pattern l (if q.introDone then l.loopIndex else 0) st) => ?_, fun hb => ?_⟩
  · rw [hstart, State.beginTenure_eq hq, State.startIndex_of_layout (by rw [hb]; rfl),
      State.loadOwner_of_good hq (hreads.loadStep hb), State.afterLoad_of_quiet,
      State.refTo_of_slot (s := s) (by rw [State.sound, State.slot_setPlay])]
    rfl
  · rw [hstart, State.beginTenure_eq hq, State.loadOwner_of_damaged hq (State.loadStep_of_damaged hb),
      State.afterLoad_of_quiet, State.refTo_of_slot (s.generation_fellBack i i q)]
    rfl

end

end Sys2Proof.Machine
end


-- ==== Sys2Proof/Proofs/StepEnds.lean ====
section
/-! PROOF. The end of a step (R54, R57 to R60, R64): a plain step end, a tail's end and a cycle's end. -/

namespace Sys2Proof.Machine

/-! ### Which end it is -/

section
variable {s : State} {owner : Handle} {now : Sounding} {q : Record} {l : Layout} {st : Step}

theorem exec_stepEnd_of_due (hp : s.play.now = some now) (ht : now.timeLeft = 0) :
    exec .stepEnd s = .next s.endStep := by
  refine congrArg Host.Outcome.next (if_pos ?_)
  simp [hp, ht]

theorem exec_stepEnd_of_not_due (h : ∀ now, s.play.now = some now → now.timeLeft ≠ 0) :
    exec .stepEnd s = .next s := by
  refine congrArg Host.Outcome.next (if_neg ?_)
  simpa [Option.any_eq_true] using h

theorem State.patternLength_of_layout {n : PatNo} (h : (s.entry n).body.layout = some l) :
    s.patternLength n = l.length := by
  rw [State.patternLength, h]
  rfl

theorem State.patternLoop_of_layout {n : PatNo} (h : (s.entry n).body.layout = some l) :
    s.patternLoop n = l.loopIndex := by
  rw [State.patternLoop, h]
  rfl

theorem EntryBody.layout_of_nameable {b : EntryBody} (h : b = .ready l ∨ b = .damaged l) : b.layout = some l := by
  obtain h | h := h <;> rw [h] <;> rfl

theorem State.endStep_of_plain (hp : s.play = .playing owner now) (hl : (s.entry now.pattern).body.layout = some l)
    (hi : now.index + 1 < l.length) : s.endStep = s.plainStepEnd owner now := by
  simp only [State.endStep, hp, State.patternLength_of_layout hl, if_pos hi]

theorem State.endStep_of_cycle (hp : s.play = .playing owner now) (hl : (s.entry now.pattern).body.layout = some l)
    (hi : now.index + 1 = l.length) : s.endStep = (s.reportCycle owner.slot).afterCycle owner now := by
  simp only [State.endStep, hp, State.patternLength_of_layout hl, if_neg hi.not_lt]

/-! ### A plain step end (R57, R64) -/

theorem State.headAbove_iff_of_record (hq : s.record owner.slot = some q) :
    s.headAbove owner = true ↔ ∃ i, s.order.head? = some i ∧ i ≠ owner.slot ∧ q.current < s.priority i := by
  have hpriority : s.priority owner.slot = q.current := by rw [State.priority, hq]; rfl
  rw [State.headAbove_iff, hpriority]

theorem State.plainStepEnd_of_above (hq : s.record owner.slot = some q) (h : s.headAbove owner = true) :
    s.plainStepEnd owner now = ((s.post (.sound .preempted (s.about owner.slot q))).setPlay .idle).startHead := by
  simp only [State.plainStepEnd, hq, h, if_true, State.refTo_eq]

theorem State.plainStepEnd_of_load (hq : s.record owner.slot = some q) (h : ¬ s.headAbove owner = true) :
    s.plainStepEnd owner now = State.afterLoad (s.loadOwner owner.slot (now.index + 1)) := by
  simp only [State.plainStepEnd, hq, h, Bool.false_eq_true, if_false]

theorem State.handleOf_of_stands (h : s.ownerStands owner = true) : s.handleOf owner.slot = owner := by
  obtain ⟨hgeneration, _⟩ := (State.ownerStands_iff owner).mp h
  rw [State.handleOf, hgeneration]

/-- Settles O24. -/
theorem stepEndGoesOnPreemptsOrEndsTail : Obligations.StepEndGoesOnPreemptsOrEndsTail := by
  refine ⟨fun s owner now q l hp ht ho hq hpat hb hi => ?_, fun s now hp ht => ?_, fun s h => ?_⟩
  · have hlayout : (s.entry now.pattern).body.layout = some l := hpat ▸ EntryBody.layout_of_nameable hb
    have habove := State.headAbove_iff_of_record hq
    rw [exec_stepEnd_of_due (by rw [hp]; rfl) ht, State.endStep_of_plain hp hlayout hi]
    refine ⟨fun h => ?_, fun st hready h (hreads : s.Reads q.pattern l (now.index + 1) st) => ?_⟩
    · rw [State.plainStepEnd_of_above hq (habove.mpr h)]
    · rw [State.plainStepEnd_of_load hq (habove.not.mpr h), State.loadOwner_of_good hq (hreads.loadStep hready),
        State.afterLoad_of_quiet, State.handleOf_of_stands ho]
      rfl
  · rw [exec_stepEnd_of_due (by rw [hp]; rfl) ht]
    simp only [State.endStep, hp]
  · refine exec_stepEnd_of_not_due fun now hnow => ?_
    obtain hp | ⟨owner, now', hp, ht⟩ | ⟨now', hp, ht⟩ := h <;> rw [hp] at hnow <;> cases hnow
    · exact ht
    · exact ht

/-! ### A cycle's end (R16, R58, R59) -/

theorem State.reportCycle_of_record (hq : s.record owner.slot = some q) :
    s.reportCycle owner.slot =
      if q.cycled.2 then
        (s.setRecord owner.slot q.cycled.1).postRecord .expired owner.slot q.cycled.1 .timer
      else s.setRecord owner.slot q.cycled.1 := by
  simp only [State.reportCycle, hq]

theorem State.reportCycle_store (s : State) (i : SlotNo) : (s.reportCycle i).store = s.store := by
  unfold State.reportCycle
  split
  · rfl
  · dsimp only
    split <;> rfl

theorem State.reportCycle_of_continuous (hq : s.record owner.slot = some q) (hm : q.mode = .continuous) :
    s.reportCycle owner.slot = s.setRecord owner.slot { q with introDone := true } := by
  simp only [State.reportCycle_of_record hq, Record.cycled, hm, Bool.false_eq_true, if_false]

theorem State.reportCycle_of_left (hq : s.record owner.slot = some q) {n left : Nat} (hm : q.mode = .counted n left)
    (h2 : 2 ≤ left) :
    s.reportCycle owner.slot =
      s.setRecord owner.slot { q with introDone := true, mode := .counted n (left - 1) } := by
  have h1 : ¬ left ≤ 1 := by omega
  simp only [State.reportCycle_of_record hq, Record.cycled, hm, if_neg h1, Bool.false_eq_true, if_false]

theorem State.reportCycle_of_last (hq : s.record owner.slot = some q) {n left : Nat} (hm : q.mode = .counted n left)
    (h1 : left ≤ 1) :
    s.reportCycle owner.slot =
      (s.setRecord owner.slot { q with introDone := true, mode := .counted n 0, soundDue := false }).post
        (.record .expired (s.about owner.slot q) .timer) := by
  simp only [State.reportCycle_of_record hq, Record.cycled, hm, if_pos h1, if_true]
  exact State.postRecord_eq _ _ _ _ .timer (s.handleOf owner.slot) (State.handleOf_setRecord s _ _ _)

theorem State.afterCycle_of_silent (h : s.order = []) : s.afterCycle owner now = s.setPlay .idle := by
  simp only [State.afterCycle, State.head, h, List.head?_nil]

theorem State.afterCycle_of_other {i : SlotNo} {others : List SlotNo} (h : s.order = i :: others) (hi : i ≠ owner.slot) :
    s.afterCycle owner now = (s.setPlay .idle).startHead := by
  simp only [State.afterCycle, State.head, h, List.head?_cons, if_neg hi]

theorem State.afterCycle_of_owner {others : List SlotNo} (h : s.order = owner.slot :: others) :
    s.afterCycle owner now = State.afterLoad (s.loadOwner owner.slot (s.patternLoop now.pattern)) := by
  simp only [State.afterCycle, State.head, h, List.head?_cons, if_true]

/-- Settles O25. -/
theorem cycleEndReportsAndHandsOver : Obligations.CycleEndReportsAndHandsOver := by
  intro s owner now q l hp ht ho hq hpat hb hi
  have hlayout : (s.entry now.pattern).body.layout = some l := hpat ▸ EntryBody.layout_of_nameable hb
  rw [exec_stepEnd_of_due (by rw [hp]; rfl) ht, State.endStep_of_cycle hp hlayout hi]
  refine ⟨s.reportCycle owner.slot, State.reportCycle_of_continuous hq, fun n left => State.reportCycle_of_left hq,
    fun n left => State.reportCycle_of_last hq, fun h => ?_, fun i others h hne => ?_,
    fun others st hready h (hreads : s.Reads q.pattern l l.loopIndex st) => ?_⟩
  · rw [State.afterCycle_of_silent h]
  · rw [State.afterCycle_of_other h hne]
  · obtain ⟨hgeneration, hpattern, hentry⟩ := s.reportCycle_frame owner.slot
    obtain ⟨cycled, hcycled, hsame⟩ : ∃ r, (s.reportCycle owner.slot).record owner.slot = some r ∧
        r.pattern = q.pattern := by
      have := hpattern owner.slot
      rwa [hq, Option.map_some, Option.map_eq_some_iff] at this
    have hload : (s.reportCycle owner.slot).loadStep cycled.pattern l.loopIndex = .good st l.pace := by
      rw [hsame, State.loadStep_congr (congrArg Entry.body (hentry _)) (s.reportCycle_store _)]
      exact hreads.loadStep hready
    have hhandle : (s.reportCycle owner.slot).handleOf owner.slot = owner := by
      rw [← State.handleOf_of_stands ho, State.handleOf, State.handleOf, hgeneration]
    rw [State.afterCycle_of_owner h, State.patternLoop_of_layout (l := l) (by rw [hentry, hlayout]),
      State.loadOwner_of_good hcycled hload, State.afterLoad_of_quiet, hhandle, hsame]
    rfl

end

end Sys2Proof.Machine
end


-- ==== Sys2Proof/Proofs/ParityFailure.lean ====
section
/-! PROOF. A step load that finds bad parity (R65, R85, R86): the pattern is marked, the owner falls back, and the
Arbiter decides on the STORE_FAULT. -/

namespace Sys2Proof.Machine

/-! ### Once an entry is DAMAGED, no load raises STORE_FAULT (R86) -/

section
variable {s : State} {i : SlotNo} {n : PatNo} {q : Record} {l : Layout}

theorem State.markDamaged_quiet (h : 0 < s.damagedCount) (source : Source) : (s.markDamaged n source).2 = false := by
  unfold State.markDamaged
  split
  · rw [if_neg h.ne']
  · rfl

theorem State.loadOwner_quiet (h : 0 < s.damagedCount) (index : Nat) : (s.loadOwner i index).2 = false := by
  unfold State.loadOwner
  split
  · rfl
  · split
    · rfl
    · rfl
    · exact State.markDamaged_quiet h _

theorem State.startOnce_quiet (h : 0 < s.damagedCount) : s.startOnce.2 = false := by
  unfold State.startOnce
  split
  · rfl
  · unfold State.beginTenure
    split
    · rfl
    · exact State.loadOwner_quiet h _

theorem State.startHead_of_damaged (h : 0 < s.damagedCount) : s.startHead = s.startOnce.1 := by
  rw [State.startHead, State.afterLoad, State.startOnce_quiet h]

/-- The decision that follows a load is the Arbiter's where the load raised STORE_FAULT (R65). -/
theorem State.afterLoad_eq_arbitrate {owner : Handle} {now : Sounding} (hp : s.play = .playing owner now)
    (ho : s.ownerStands owner = true) (hd : 0 < s.damagedCount) (raised : Bool) :
    State.afterLoad (s, raised) = if raised then s.arbitrate .byRelease else s := by
  cases raised with
  | false => rfl
  | true =>
    have hcut : 0 < s.cut.damagedCount := by
      rw [damagedCount_pos_iff] at hd ⊢
      simpa only [State.cut, State.entry_setPlay] using hd
    simp only [State.afterLoad, hp, State.arbitrate_of_standing hp ho, State.startHead_of_damaged hcut, if_true]

/-! ### What the marking leaves (R85) -/

theorem State.internalRaise_changes_iff (s : State) (i : SlotNo) (f : RaiseFields) :
    (s.internalRaise i f).2 = true ↔ ∀ q ∈ s.record i, q.state ≠ .alerting := by
  obtain ⟨hr, h⟩ | ⟨r, hr, ha, h⟩ | ⟨r, hr, ha, h⟩ := s.internalRaise_cases i f
  · simp [h, hr]
  · simp [h, hr, ha]
  · simp [h, hr, ha]

theorem State.body_internalRaise (s : State) (i : SlotNo) (f : RaiseFields) (n : PatNo) :
    ((s.internalRaise i f).1.entry n).body = (s.entry n).body := by
  obtain ⟨_, h⟩ | ⟨_, _, _, h⟩ | ⟨_, _, _, h⟩ := s.internalRaise_cases i f
  · rw [h, State.createRecord_eq_enroll, State.entry_post, State.body_enroll]
  · rw [h]
  · rw [h, State.realertRecord_eq_reenroll, State.entry_post, State.body_reenroll]

theorem State.body_foundDamaged (s : State) (n : PatNo) (l : Layout) :
    ((s.foundDamaged n l).entry n).body = .damaged l := by
  unfold State.foundDamaged
  dsimp only
  split
  · rw [State.body_internalRaise, State.entry_post, State.entry_setEntry, if_pos rfl]
  · rw [State.entry_post, State.entry_setEntry, if_pos rfl]

theorem State.body_fellBack (s : State) (i : SlotNo) (q : Record) (n : PatNo) :
    ((s.fellBack i q).entry n).body = (s.entry n).body := by
  rw [State.fellBack, State.entry_setPlay]
  exact s.body_moveRef n q.pattern 28

/-- A marking with no ALERTING STORE_FAULT before it raises one exactly where no entry was DAMAGED (R86). -/
theorem State.markDamaged_eq (hb : (s.entry n).body = .ready l)
    (hquiet : s.damagedCount = 0 → ∀ f ∈ s.record 29, f.state ≠ .alerting) :
    s.markDamaged n .internal = (s.foundDamaged n l, decide (s.damagedCount = 0)) := by
  simp only [State.markDamaged, State.foundDamaged, hb]
  split_ifs with hd
  · rw [decide_eq_true hd]
    exact Prod.ext rfl ((State.internalRaise_changes_iff _ _ _).mpr (hquiet hd))
  · rw [decide_eq_false hd]

/-! ### The load (R65) -/

/-- The word that a load of the READY pattern of this record reads at this index is of bad parity, and no STORE_FAULT
is ALERTING where no entry is DAMAGED. -/
structure State.FindsBadWord (s : State) (q : Record) (l : Layout) (index : Nat) : Prop where
  user : isBuiltIn q.pattern = false
  body : (s.entry q.pattern).body = .ready l
  word : ∃ start, l.start = some start ∧ (s.word (start + index)).good = false
  quiet : s.damagedCount = 0 → ∀ f ∈ s.record 29, f.state ≠ .alerting

variable {index : Nat}

theorem State.FindsBadWord.loadOwner (h : s.FindsBadWord q l index) (hq : s.record i = some q)
    (he : s.eligible i = true) :
    s.loadOwner i index = ((s.foundDamaged q.pattern l).fellBack i q, decide (s.damagedCount = 0)) := by
  obtain ⟨start, hstart, hword⟩ := h.word
  obtain ⟨q', hq', halerting, _, _⟩ := (s.eligible_iff i).mp he
  have hmarked := State.markDamaged_eq h.body h.quiet
  have hslot : (s.foundDamaged q.pattern l).record i = some q := by
    have := State.slot_markDamaged (n := q.pattern) (source := .internal) hq' halerting
    rw [hmarked] at this
    rw [State.record, this, ← hq]
    rfl
  rw [State.loadOwner_of_badParity hq (State.loadStep_of_badWord h.user h.body hstart hword), hmarked,
    State.fallBack_eq hslot]

/-- What the fall back leaves plays on the owner, which stands, with an entry DAMAGED. -/
theorem State.FindsBadWord.fellBack (h : s.FindsBadWord q l index) (hq : s.record i = some q)
    (he : s.eligible i = true) :
    ∃ owner now, ((s.foundDamaged q.pattern l).fellBack i q).play = .playing owner now ∧
      ((s.foundDamaged q.pattern l).fellBack i q).ownerStands owner = true ∧
      0 < ((s.foundDamaged q.pattern l).fellBack i q).damagedCount := by
  have hload := h.loadOwner hq he
  have hplay : ((s.foundDamaged q.pattern l).fellBack i q).play = .playing _ _ := State.setPlay_play _ _
  obtain ⟨⟨hstands, _⟩, _⟩ := State.loadOwner_settled he index
  rw [hload] at hstands
  refine ⟨_, _, hplay, hstands _ _ hplay, (damagedCount_pos_iff _).mpr ⟨q.pattern, h.user, ?_⟩⟩
  rw [State.body_fellBack, State.body_foundDamaged]
  rfl

theorem State.FindsBadWord.afterLoad (h : s.FindsBadWord q l index) (hq : s.record i = some q)
    (he : s.eligible i = true) :
    State.afterLoad (s.loadOwner i index) =
      if s.damagedCount = 0 then ((s.foundDamaged q.pattern l).fellBack i q).arbitrate .byRelease
      else (s.foundDamaged q.pattern l).fellBack i q := by
  obtain ⟨owner, now, hplay, hstands, hdamaged⟩ := h.fellBack hq he
  rw [h.loadOwner hq he, State.afterLoad_eq_arbitrate hplay hstands hdamaged]
  simp only [decide_eq_true_eq]

theorem State.FindsBadWord.startHead {others : List SlotNo} (horder : s.order = i :: others) (hq : s.record i = some q)
    (h : s.FindsBadWord q l (s.startIndex q)) :
    s.startHead =
      if s.damagedCount = 0 then
        (((s.foundDamaged q.pattern l).fellBack i q).post (.sound .sounding (s.about i q))).arbitrate .byRelease
      else ((s.foundDamaged q.pattern l).fellBack i q).post (.sound .sounding (s.about i q)) := by
  have he : s.eligible i = true := State.eligible_of_mem_order (horder ▸ List.mem_cons_self)
  obtain ⟨owner, now, hplay, hstands, hdamaged⟩ := h.fellBack hq he
  obtain ⟨q', hq', halerting, _, _⟩ := (s.eligible_iff i).mp he
  have hgeneration : (((s.foundDamaged q.pattern l).fellBack i q).slot i).generation = (s.slot i).generation := by
    have := State.slot_markDamaged (n := q.pattern) (source := .internal) hq' halerting
    rw [State.markDamaged_eq h.body h.quiet] at this
    rw [State.generation_fellBack, this]
  rw [State.startHead, State.startOnce_of_order horder, State.beginTenure_eq hq, h.loadOwner hq he,
    State.refTo_of_slot hgeneration]
  dsimp only
  rw [State.afterLoad_eq_arbitrate (s := State.post _ _) (owner := owner) (now := now) hplay hstands hdamaged]
  simp only [decide_eq_true_eq]

/-- Settles O26. -/
theorem parityFailureFallsBack : Obligations.ParityFailureFallsBack := by
  refine ⟨fun s owner now q l hp ht ho hq hpat hi habove => ?_, ?_, ?_⟩
  · obtain ⟨_, he⟩ := (State.ownerStands_iff owner).mp ho
    have hend : ∀ l', (s.entry q.pattern).body.layout = some l' → l' = l →
        exec .stepEnd s = .next (State.afterLoad (s.loadOwner owner.slot (now.index + 1))) := by
      rintro l' hl rfl
      rw [exec_stepEnd_of_due (by rw [hp]; rfl) ht, State.endStep_of_plain hp (hpat ▸ hl) hi,
        State.plainStepEnd_of_load hq ((State.headAbove_iff_of_record hq).not.mpr habove)]
    refine ⟨fun start hu hb hl hw _ hquiet => ?_, fun hb => ?_⟩
    · rw [hend l (by rw [hb]; rfl) rfl, State.FindsBadWord.afterLoad ⟨hu, hb, ⟨start, hl, hw⟩, hquiet⟩ hq he]
    · rw [hend l (by rw [hb]; rfl) rfl, State.loadOwner_of_damaged hq (State.loadStep_of_damaged hb),
        State.afterLoad_of_quiet]
  · intro s owner now q cycled l others hp ht ho hq hpat hi hcycled s1 horder
    have hreport : s.reportCycle owner.slot = s1 ∧ cycled.pattern = q.pattern := by
      obtain ⟨hm, rfl⟩ | ⟨n, left, hm, h2, rfl⟩ := hcycled
      · exact ⟨State.reportCycle_of_continuous hq hm, rfl⟩
      · exact ⟨State.reportCycle_of_left hq hm h2, rfl⟩
    obtain ⟨hreport, hpattern⟩ := hreport
    have he : s1.eligible owner.slot = true := State.eligible_of_mem_order (horder ▸ List.mem_cons_self)
    have hq1 : s1.record owner.slot = some cycled := by rw [State.record_setRecord, if_pos rfl]
    have hend : ∀ l', (s.entry q.pattern).body.layout = some l' → l' = l →
        exec .stepEnd s = .next (State.afterLoad (s1.loadOwner owner.slot l.loopIndex)) := by
      rintro l' hl rfl
      rw [exec_stepEnd_of_due (by rw [hp]; rfl) ht, State.endStep_of_cycle hp (hpat ▸ hl) hi, hreport,
        State.afterCycle_of_owner horder, State.patternLoop_of_layout (l := l') (hpat ▸ hl)]
    refine ⟨fun start hu hb hl hw hne hquiet => ?_, fun hb => ?_⟩
    · have hquiet1 : s1.damagedCount = 0 → ∀ f ∈ s1.record 29, f.state ≠ .alerting := by
        rw [State.record_setRecord, if_neg hne]
        exact hquiet
      have hfinds : s1.FindsBadWord cycled l l.loopIndex :=
        ⟨hpattern ▸ hu, hpattern ▸ hb, ⟨start, hl, hw⟩, hquiet1⟩
      rw [hend l (by rw [hb]; rfl) rfl, hfinds.afterLoad hq1 he, hpattern]
      rfl
    · rw [hend l (by rw [hb]; rfl) rfl, State.loadOwner_of_damaged hq1, State.afterLoad_of_quiet]
      exact State.loadStep_of_damaged (l := l) (hpattern ▸ hb)
  · intro s i others q l start leaving hidle horder hq hu hb hl hw _ hquiet
    have hindex : s.startIndex q = if q.introDone then l.loopIndex else 0 := State.startIndex_of_layout (by rw [hb]; rfl)
    rw [State.arbitrate_of_idle hidle,
      State.FindsBadWord.startHead horder hq ⟨hu, hb, ⟨start, hl, hindex ▸ hw⟩, hquiet⟩]

end

end Sys2Proof.Machine
end


-- ==== Sys2Proof/Proofs/PatternRequests.lean ====
section
/-! PROOF. PATTERN_DEFINE, PATTERN_APPEND, PATTERN_COMMIT and PATTERN_DELETE (R70, R73 to R80). -/

namespace Sys2Proof.Machine

/-! ### PATTERN_DEFINE (R73, R74, R76) -/

theorem foldl_max_le_iff (l : List Nat) (a b : Nat) : l.foldl Nat.max a ≤ b ↔ a ≤ b ∧ ∀ x ∈ l, x ≤ b := by
  induction l generalizing a with
  | nil => simp
  | cons x l ih => rw [List.foldl_cons, ih]; simp [and_assoc]

theorem foldl_max_mem (l : List Nat) (a : Nat) : l.foldl Nat.max a = a ∨ l.foldl Nat.max a ∈ l := by
  induction l generalizing a with
  | nil => simp
  | cons x l ih =>
    rw [List.foldl_cons]
    obtain h | h := ih (a.max x)
    · rw [h]
      obtain h' | h' := max_choice a x
      · exact .inl h'
      · exact .inr (List.mem_cons.mpr (.inl h'))
    · exact .inr (List.mem_cons_of_mem x h)

theorem State.le_freeLargest (s : State) : ∀ x ∈ s.free, x.length ≤ s.freeLargest := fun _ hx =>
  ((foldl_max_le_iff _ 0 s.freeLargest).mp le_rfl).2 _ (List.mem_map_of_mem hx)

theorem State.exists_freeLargest {s : State} (h : s.free ≠ []) : ∃ x ∈ s.free, x.length = s.freeLargest := by
  obtain hzero | hmem := foldl_max_mem (s.free.map Extent.length) 0
  · obtain ⟨x, hx⟩ := List.exists_mem_of_ne_nil _ h
    exact ⟨x, hx, le_antisymm (s.le_freeLargest x hx) (hzero.trans_le (Nat.zero_le _))⟩
  · obtain ⟨x, hx, hlength⟩ := List.mem_map.mp hmem
    exact ⟨x, hx, hlength⟩

section
variable {s : State} {p : Port} {r : Request} {rest : List Request} {number : PatNo}

theorem defineFields_of_range {number n loopIndex pace : Byte}
    (h : 31 < number.toNat ∨ n.toNat = 0 ∨ 128 < n.toNat ∨ n.toNat ≤ loopIndex.toNat ∨ pace.toNat = 0 ∨
      8 < pace.toNat) : defineFields [number, n, loopIndex, pace] = none := by
  simp only [defineFields]
  by_cases hn : 31 < number.toNat
  · rw [patternField_of_le hn]
  · rw [patternField_of_lt (by omega)]
    exact if_pos (by omega)

theorem defineFields_of_inRange {n loopIndex pace : Nat} (number : PatNo) (h1 : 1 ≤ n) (h128 : n ≤ 128)
    (hl : loopIndex < n) (hp1 : 1 ≤ pace) (hp8 : pace ≤ 8) :
    defineFields [byte number.val, byte n, byte loopIndex, byte pace] = some (number, n, loopIndex, pace) := by
  have hn := byte_toNat_of_lt (n := n) (by omega)
  have hloop := byte_toNat_of_lt (n := loopIndex) (by omega)
  have hpace := byte_toNat_of_lt (n := pace) (by omega)
  simp only [defineFields, patternField_byte, hn, hloop, hpace]
  exact if_neg (by omega)

theorem serviceOf_patternDefine_of_range (h : s.Taking .patternDefine p r rest) (ha : (s.rights p).p = true)
    (hf : defineFields r.payload = none) :
    serviceOf .patternDefine p r.payload (s.removeRequest p) = (s.removeRequest p).refuse .badValue := by
  simp only [serviceOf, servePatternDefine, h.gate ha, hf]

variable {n loopIndex pace : Nat}

theorem serviceOf_patternDefine_of_taken (h : s.Taking .patternDefine p r rest) (ha : (s.rights p).p = true)
    (hf : defineFields r.payload = some (number, n, loopIndex, pace)) (he : (s.entry number).body ≠ .empty) :
    serviceOf .patternDefine p r.payload (s.removeRequest p) = (s.removeRequest p).refuse .wrongState := by
  simp only [serviceOf, servePatternDefine, h.gate ha, hf, State.removeRequest_entry]

theorem serviceOf_patternDefine_of_empty (h : s.Taking .patternDefine p r rest) (ha : (s.rights p).p = true)
    (hf : defineFields r.payload = some (number, n, loopIndex, pace)) (he : (s.entry number).body = .empty) :
    serviceOf .patternDefine p r.payload (s.removeRequest p) =
      match firstFit n s.free with
      | none => { state := s.removeRequest p, status := .noSpace, payload := bytes2 s.freeLargest }
      | some (start, free) =>
        State.okay (State.setEntry { s.removeRequest p with free := free } number
          { body := .loading
              { definer := some p, start := some start, length := n, loopIndex := loopIndex, pace := pace } 0
            refs := 0 }) (bytes2 start) := by
  simp only [serviceOf, servePatternDefine, h.gate ha, hf, State.removeRequest_entry, he] <;> rfl

/-- Settles O27. -/
theorem patternDefineAllocates : Obligations.PatternDefineAllocates := by
  have hmem : (Instr.patternDefine, Kind.patternDefine) ∈ requestCommands := by decide
  refine ⟨fun s => ⟨fun h => ?_, s.le_freeLargest, State.exists_freeLargest, rfl⟩,
    fun s p r rest number n loopIndex pace h ha hp hr => ?_,
    fun s p r rest number n loopIndex pace h ha hp h1 h128 hl hp1 hp8 => ⟨fun he => ?_, fun he hx => ?_, ?_⟩⟩
  · rw [State.freeLargest, h]
    rfl
  · exact h.refused hmem (serviceOf_patternDefine_of_range h ha (hp ▸ defineFields_of_range hr))
  all_goals have hf := hp ▸ defineFields_of_inRange number h1 h128 hl hp1 hp8
  · exact h.refused hmem (serviceOf_patternDefine_of_taken h ha hf he)
  · refine h.refused hmem ?_
    rw [serviceOf_patternDefine_of_empty h ha hf he, (firstFit_none n s.free).mpr hx]
  · intro before x after he hfree hbefore hx
    refine h.served hmem ?_
    rw [serviceOf_patternDefine_of_empty h ha hf he, hfree, firstFit_of_append n before x after hbefore hx]
    rfl

end

/-! ### PATTERN_APPEND and PATTERN_COMMIT: the owner and the state of the entry (R77, R78) -/

section
variable {k : Kind} {s : State} {p : Port} {r : Request} {rest : List Request} {number : PatNo} {l : Layout}
  {fill : Nat} {steps : List Step}

theorem EntryBody.heldByOther_iff {b : EntryBody} {l : Layout} (h : b.layout = some l) (p : Port) :
    b.heldByOther p = true ↔ ∃ o, l.definer = some o ∧ o ≠ p := by
  simp [EntryBody.heldByOther, h, Option.any_eq_true]

/-- A PATTERN_APPEND or a PATTERN_COMMIT, with the entry it names (Table 11.5). -/
def Kind.FillsEntry (k : Kind) (payload : List Byte) (number : PatNo) : Prop :=
  (k = .patternAppend ∧ ∃ steps, appendFields payload = some (number, steps)) ∨
    (k = .patternCommit ∧ numberField payload = some number)

theorem State.Taking.notOwner (h : s.Taking k p r rest) (ha : (s.rights p).p = true)
    (hk : k.FillsEntry r.payload number) (hheld : (s.entry number).body.heldByOther p = true) :
    serviceOf k p r.payload (s.removeRequest p) = (s.removeRequest p).refuse .notOwner := by
  obtain ⟨rfl, steps, hf⟩ | ⟨rfl, hf⟩ := hk
  · simp only [serviceOf, servePatternAppend, h.gate ha, hf, State.removeRequest_entry, hheld, if_true]
  · simp only [serviceOf, servePatternCommit, h.gate ha, hf, State.removeRequest_entry, hheld, if_true]

theorem State.Taking.notLoading (h : s.Taking k p r rest) (ha : (s.rights p).p = true)
    (hk : k.FillsEntry r.payload number) (hheld : (s.entry number).body.heldByOther p = false)
    (hb : ∀ l fill, (s.entry number).body ≠ .loading l fill) :
    serviceOf k p r.payload (s.removeRequest p) = (s.removeRequest p).refuse .wrongState := by
  obtain ⟨rfl, steps, hf⟩ | ⟨rfl, hf⟩ := hk
  · simp only [serviceOf, servePatternAppend, h.gate ha, hf, State.removeRequest_entry, hheld, Bool.false_eq_true,
      if_false]
  · simp only [serviceOf, servePatternCommit, h.gate ha, hf, State.removeRequest_entry, hheld, Bool.false_eq_true,
      if_false]

theorem appendFields_of_range {number count : Byte} (steps : List Byte)
    (h : 31 < number.toNat ∨ count.toNat = 0 ∨ 8 < count.toNat) : appendFields (number :: count :: steps) = none := by
  simp only [appendFields]
  by_cases hn : 31 < number.toNat
  · rw [patternField_of_le hn]
  · rw [patternField_of_lt (by omega)]
    exact if_pos (by omega)

/-! ### PATTERN_APPEND writes the steps (R70, R77) -/

theorem State.writeSteps_eq (s : State) (index : Nat) (steps : List Step) :
    s.writeSteps index steps = { s with store := (s.writeSteps index steps).store } := by
  induction steps generalizing s index with
  | nil => rfl
  | cons st steps ih =>
    simp only [State.writeSteps]
    rw [ih (s.setWord index st.word), State.setWord_eq]

theorem State.read_writeSteps_other (s : State) {index a : Nat} {steps : List Step}
    (h : a < index ∨ index + steps.length ≤ a) : (s.writeSteps index steps).store.read a = s.store.read a := by
  induction steps generalizing s index with
  | nil => rfl
  | cons st steps ih =>
    rw [List.length_cons] at h
    rw [State.writeSteps, ih (s.setWord index st.word) (by omega)]
    by_cases hi : index < Config.stepWords
    · rw [State.setWord_store s index _ hi, Store.read_write_other _ _ _ _ (by omega)]
    · rw [State.setWord, if_neg hi]

theorem Step.word_ne_unlisted {st : Step} (h : st.units ≠ 0) : st.word ≠ Store.unlisted := fun hw =>
  h (congrArg (fun w : StepWord => w.step.units) hw)

theorem State.read_writeSteps (s : State) {index k : Nat} {steps : List Step} {st : Step}
    (hroom : index + steps.length ≤ Config.stepWords) (hunits : ∀ st ∈ steps, st.units ≠ 0) (hk : steps[k]? = some st) :
    (s.writeSteps index steps).store.read (index + k) = st.word := by
  induction steps generalizing s index k with
  | nil => simp at hk
  | cons first steps ih =>
    rw [List.length_cons] at hroom
    rw [State.writeSteps]
    cases k with
    | zero =>
      obtain rfl : first = st := by simpa using hk
      rw [Nat.add_zero, State.read_writeSteps_other _ (by omega), State.setWord_store s index _ (by omega)]
      exact Store.read_write_listed _ _ _ (Step.word_ne_unlisted (hunits first List.mem_cons_self))
    | succ k =>
      rw [show index + (k + 1) = index + 1 + k by omega]
      exact ih _ (index := index + 1) (k := k) (by omega) (fun st hst => hunits st (List.mem_cons_of_mem first hst)) (by simpa using hk)

theorem Step.ones_word (st : Step) : st.word.ones % 2 = 0 := by
  simpa [StepWord.good] using st.word_good

theorem serviceOf_patternAppend_of_loading (h : s.Taking .patternAppend p r rest) (ha : (s.rights p).p = true)
    (hf : appendFields r.payload = some (number, steps)) (hb : (s.entry number).body = .loading l fill)
    (hd : l.definer = some p) :
    serviceOf .patternAppend p r.payload (s.removeRequest p) =
      if steps.any (fun st => decide (st.units = 0)) then (s.removeRequest p).refuse .badStep
      else if l.length < fill + steps.length then (s.removeRequest p).refuse .overfill
      else
        State.okay
          (((s.removeRequest p).writeSteps (l.start.getD 0 + fill) steps).setEntry number
            { s.entry number with body := .loading l (fill + steps.length) }) [byte (fill + steps.length)] := by
  have hheld : (EntryBody.loading l fill).heldByOther p = false := by
    rw [← Bool.not_eq_true, EntryBody.heldByOther_iff (l := l) rfl]
    simp [hd]
  simp only [serviceOf, servePatternAppend, h.gate ha, hf, State.removeRequest_entry, hb, hheld, hd,
    Bool.false_eq_true, if_false, reduceCtorEq]

/-! ### PATTERN_COMMIT (R78) -/

theorem serviceOf_patternCommit_of_loading (h : s.Taking .patternCommit p r rest) (ha : (s.rights p).p = true)
    (hf : numberField r.payload = some number) (hb : (s.entry number).body = .loading l fill)
    (hd : l.definer = some p) :
    serviceOf .patternCommit p r.payload (s.removeRequest p) =
      if fill ≠ l.length then { state := s.removeRequest p, status := .incomplete, payload := [byte fill] }
      else
        State.okay (((s.removeRequest p).setEntry number { s.entry number with body := .ready l }).post
          (.patternState number (.port p))) [] := by
  have hheld : (EntryBody.loading l fill).heldByOther p = false := by
    rw [← Bool.not_eq_true, EntryBody.heldByOther_iff (l := l) rfl]
    simp [hd]
  simp only [serviceOf, servePatternCommit, h.gate ha, hf, State.removeRequest_entry, hb, hheld, hd,
    Bool.false_eq_true, if_false, reduceCtorEq]

/-- Settles O28. -/
theorem patternsAreFilledAndCommitted : Obligations.PatternsAreFilledAndCommitted := by
  have happend : (Instr.patternAppend, Kind.patternAppend) ∈ requestCommands := by decide
  have hcommit : (Instr.patternCommit, Kind.patternCommit) ∈ requestCommands := by decide
  refine ⟨?_, fun s p r rest number count steps h ha hp hr => ?_, fun s p r rest number h ha hp hr => ?_, ?_, ?_⟩
  · intro c k s p r rest number hc h ha hpa hpc refused
    obtain ⟨hcommand, hk⟩ : (c, k) ∈ requestCommands ∧ k.FillsEntry r.payload number := by
      simp only [List.mem_cons, Prod.mk.injEq, List.not_mem_nil, or_false] at hc
      obtain ⟨rfl, rfl⟩ | ⟨rfl, rfl⟩ := hc
      · exact ⟨happend, .inl ⟨rfl, hpa rfl⟩⟩
      · exact ⟨hcommit, .inr ⟨rfl, hpc rfl ▸ numberField_byte number⟩⟩
    refine ⟨fun hb => h.refused hcommand (h.notLoading ha hk (by rw [hb]; rfl) (by simp [hb])), fun l hb => ?_⟩
    have hheld := EntryBody.heldByOther_iff (EntryBody.layout_of_nameable hb) p
    refine ⟨fun hd => h.refused hcommand (h.notLoading ha hk ?_ ?_),
      fun o ho hne => h.refused hcommand (h.notOwner ha hk (hheld.mpr ⟨o, ho, hne⟩))⟩
    · rw [← Bool.not_eq_true, hheld]
      obtain hd | hd := hd <;> simp [hd]
    · obtain hb | hb := hb <;> simp [hb]
  · refine h.refused happend ?_
    simp only [serviceOf, servePatternAppend, h.gate ha, hp ▸ appendFields_of_range steps hr] <;> rfl
  · refine h.refused hcommit ?_
    simp only [serviceOf, servePatternCommit, h.gate ha, hp ▸ numberField_of_range hr] <;> rfl
  · intro s p r rest number steps l fill start h ha hf hb hstart hroom
    refine ⟨fun hd => ?_, fun o ho hne => h.refused happend (h.notOwner ha (.inl ⟨rfl, steps, hf⟩) ?_)⟩
    · have hservice := serviceOf_patternAppend_of_loading h ha hf hb hd
      have hbad : (steps.any fun st => decide (st.units = 0)) = true ↔ ∃ st ∈ steps, st.units = 0 := by simp
      refine ⟨fun hu => h.refused happend (hservice.trans (if_pos (hbad.mpr hu))), fun hu hover => ?_, fun hu hfit => ?_⟩
      all_goals rw [if_neg (by rw [hbad]; exact fun ⟨st, hst, h0⟩ => hu st hst h0)] at hservice
      · exact h.refused happend (hservice.trans (if_pos hover))
      · rw [if_neg hfit.not_gt, hstart, Option.getD_some, State.writeSteps_eq] at hservice
        have hin : start + fill + steps.length ≤ Config.stepWords := by
          have : Config.stepWords = 1024 := rfl
          omega
        refine ⟨_, h.served happend hservice, fun k st hk => ?_,
          fun a hout => State.read_writeSteps_other (s.removeRequest p) hout⟩
        rw [State.read_writeSteps (s.removeRequest p) hin hu hk]
        exact ⟨rfl, st.ones_word⟩
    · rw [hb, EntryBody.heldByOther_iff (l := l) rfl]
      exact ⟨o, ho, hne⟩
  · intro s p r rest number l fill h ha hp hb
    have hf := hp ▸ numberField_byte number
    refine ⟨fun hd hfull => h.served hcommit ?_, fun hd hpart => h.refused hcommit ?_,
      fun o ho hne => h.refused hcommit (h.notOwner ha (.inr ⟨rfl, hf⟩) ?_)⟩
    · rw [serviceOf_patternCommit_of_loading h ha hf hb hd, if_neg (not_not.mpr hfull)]
    · rw [serviceOf_patternCommit_of_loading h ha hf hb hd, if_pos hpart.ne]
    · rw [hb, EntryBody.heldByOther_iff (l := l) rfl]
      exact ⟨o, ho, hne⟩

end

end Sys2Proof.Machine
end


-- ==== Sys2Proof/Proofs/PatternDelete.lean ====
section
/-! PROOF. PATTERN_DELETE (R79, R80, R86): who may delete an entry, and what a deletion does. -/

namespace Sys2Proof.Machine

section
variable {s : State} {p : Port} {r : Request} {rest : List Request} {number : PatNo} {l : Layout}

/-! ### Why a deletion is refused (R79, Table 4.3) -/

theorem State.deleteRefusal_of_empty (h : (s.entry number).body = .empty) :
    s.deleteRefusal p number = some .wrongState := by
  simp only [State.deleteRefusal, h]

theorem State.deleteRefusal_of_builtIn (hs : s.BuiltInsStand) (h : isBuiltIn number = true) :
    s.deleteRefusal p number = some .wrongState := by
  obtain ⟨pace, _, _, _, hb⟩ := hs.entry h
  simp [State.deleteRefusal, hb, h]

theorem State.deleteRefusal_of_loading {fill : Nat} (h : (s.entry number).body = .loading l fill) :
    s.deleteRefusal p number = if l.definer ≠ some p then some .notOwner else none := by
  simp only [State.deleteRefusal, h]

theorem State.deleteRefusal_of_otherReady (h : (s.entry number).body = .ready l) {o : Port} (ho : l.definer = some o)
    (hne : o ≠ p) : s.deleteRefusal p number = some .notOwner := by
  simp [State.deleteRefusal, h, ho, hne]

theorem State.deleteRefusal_of_user (hu : isBuiltIn number = false)
    (h : ((s.entry number).body = .ready l ∧ (l.definer = some p ∨ l.definer = none)) ∨
      (s.entry number).body = .damaged l) :
    s.deleteRefusal p number = if 0 < (s.entry number).refs then some .inUse else none := by
  obtain ⟨hb, hd | hd⟩ | hb := h <;> simp [State.deleteRefusal, *]

/-! ### What a deletion does (R80, R86) -/

theorem State.dropPattern_eq {start : Nat} (h : l.start = some start) (source : Source) :
    s.dropPattern number l source =
      State.post
        { s with
          free := insertExtent { start := start, length := l.length } s.free
          directory := s.directory.set number { body := .empty, refs := 0 } }
        (.patternState number source) := by
  simp only [State.dropPattern, State.freeExtent, h]
  rfl

theorem State.deletePattern_of_intact (h : (s.entry number).body = .ready l ∨
    ∃ fill, (s.entry number).body = .loading l fill) :
    s.deletePattern p number = s.dropPattern number l (.port p) := by
  obtain h | ⟨fill, h⟩ := h <;> simp only [State.deletePattern, h]

theorem State.damagedCount_dropPattern (source : Source) :
    0 < (s.dropPattern number l source).damagedCount ↔
      ∃ m, m ≠ number ∧ isBuiltIn m = false ∧ (s.entry m).body.isDamaged = true := by
  have hentry : ∀ m, (s.dropPattern number l source).entry m = if number = m then Entry.empty else s.entry m :=
    fun m => by rw [State.dropPattern, State.entry_post, State.entry_setEntry, State.freeExtent_entry]
  rw [damagedCount_pos_iff]
  constructor
  · rintro ⟨m, hu, hd⟩
    rw [hentry] at hd
    split_ifs at hd with hm
    · exact absurd hd nofun
    · exact ⟨m, Ne.symm hm, hu, hd⟩
  · rintro ⟨m, hm, hu, hd⟩
    exact ⟨m, hu, by rwa [hentry, if_neg hm.symm]⟩

theorem State.deletePattern_of_damaged (h : (s.entry number).body = .damaged l) :
    s.deletePattern p number =
      if (s.dropPattern number l (.port p)).damagedCount = 0 then
        State.arbitrateIf ((s.dropPattern number l (.port p)).internalReturn 29)
      else s.dropPattern number l (.port p) := by
  simp only [State.deletePattern, h]
  rfl

/-! ### The request -/

theorem serviceOf_patternDelete_of_refusal (h : s.Taking .patternDelete p r rest) (ha : (s.rights p).p = true)
    (hf : numberField r.payload = some number) {status : Status} (hne : status ≠ .inUse)
    (hr : s.deleteRefusal p number = some status) :
    serviceOf .patternDelete p r.payload (s.removeRequest p) = (s.removeRequest p).refuse status := by
  have hr' : (s.removeRequest p).deleteRefusal p number = some status := hr
  simp only [serviceOf, servePatternDelete, h.gate ha, hf, hr']

theorem serviceOf_patternDelete_of_inUse (h : s.Taking .patternDelete p r rest) (ha : (s.rights p).p = true)
    (hf : numberField r.payload = some number) (hr : s.deleteRefusal p number = some .inUse) :
    serviceOf .patternDelete p r.payload (s.removeRequest p) =
      { state := s.removeRequest p, status := .inUse, payload := [byte (s.entry number).refs] } := by
  have hr' : (s.removeRequest p).deleteRefusal p number = some .inUse := hr
  simp only [serviceOf, servePatternDelete, h.gate ha, hf, hr', State.removeRequest_entry]

theorem exec_patternDelete_done (h : s.Taking .patternDelete p r rest) (ha : (s.rights p).p = true)
    (hf : numberField r.payload = some number) (hr : s.deleteRefusal p number = none) {t : State}
    (ht : (s.removeRequest p).deletePattern p number = t) :
    exec .patternDelete s = .next (t.answered p r (bytes2 t.freeTotal ++ bytes2 t.freeLargest)) := by
  have hr' : (s.removeRequest p).deleteRefusal p number = none := hr
  refine h.served (c := .patternDelete) (by decide) ?_
  simp only [serviceOf, servePatternDelete, h.gate ha, hf, hr', ht]

/-- Settles O29. -/
theorem patternDeleteFollowsTable : Obligations.PatternDeleteFollowsTable := by
  have hmem : (Instr.patternDelete, Kind.patternDelete) ∈ requestCommands := by decide
  refine ⟨fun s p r rest number h ha hp hr => h.refused hmem ?_, ?_⟩
  · simp only [serviceOf, servePatternDelete, h.gate ha, hp ▸ numberField_of_range hr] <;> rfl
  intro s p r rest number h ha hp hs e dropped done refused
  have hf := hp ▸ numberField_byte number
  have hdropped : ∀ l start, l.start = some start →
      (s.removeRequest p).dropPattern number l (.port p) = dropped l start := fun l start hl =>
    State.dropPattern_eq (s := s.removeRequest p) hl (.port p)
  have hrefused : ∀ status, status ≠ .inUse → s.deleteRefusal p number = some status → refused status [] :=
    fun status hne hr => h.refused hmem (serviceOf_patternDelete_of_refusal h ha hf hne hr)
  refine ⟨fun he => hrefused _ nofun ?_, fun hu => ⟨fun l fill hb hd => hrefused _ nofun ?_,
    fun l fill start hb hd hl => exec_patternDelete_done h ha hf ?_ ?_,
    fun l o hb ho hne => hrefused _ nofun (State.deleteRefusal_of_otherReady hb ho hne), fun l hb hrefs => ?_,
    fun l start hb hd hrefs hl => exec_patternDelete_done h ha hf ?_ ?_, fun l start hb hrefs hl => ?_⟩⟩
  · obtain he | he := he
    · exact State.deleteRefusal_of_empty he
    · exact State.deleteRefusal_of_builtIn hs he
  · rw [State.deleteRefusal_of_loading hb, if_pos hd]
  · rw [State.deleteRefusal_of_loading hb, if_neg (not_not.mpr hd)]
  · rw [State.deletePattern_of_intact (s := s.removeRequest p) (.inr ⟨fill, hb⟩), hdropped l start hl]
  · exact h.refused hmem (serviceOf_patternDelete_of_inUse h ha hf
      ((State.deleteRefusal_of_user hu hb).trans (if_pos hrefs)))
  · rw [State.deleteRefusal_of_user hu (.inl ⟨hb, hd⟩), if_neg hrefs.not_gt]
  · rw [State.deletePattern_of_intact (s := s.removeRequest p) (.inl hb), hdropped l start hl]
  · have hfree : s.deleteRefusal p number = none :=
      (State.deleteRefusal_of_user hu (.inr hb)).trans (if_neg hrefs.not_gt)
    have hdeleted := State.deletePattern_of_damaged (s := s.removeRequest p) (p := p) hb
    have hcount := State.damagedCount_dropPattern (s := s.removeRequest p) (number := number) (l := l) (.port p)
    rw [hdropped l start hl] at hdeleted hcount
    refine ⟨fun hother => exec_patternDelete_done h ha hf hfree ?_, fun hlast =>
      exec_patternDelete_done h ha hf hfree ?_⟩
    · rw [hdeleted, if_neg (hcount.mpr hother).ne']
    · rw [hdeleted, if_pos]
      · rfl
      · refine Nat.eq_zero_of_not_pos fun hpos => ?_
        obtain ⟨m, hm, hum, hdm⟩ := hcount.mp hpos
        exact absurd hdm (by rw [State.removeRequest_entry, hlast m hm hum]; exact nofun)

end

end Sys2Proof.Machine
end


-- ==== Sys2Proof/Proofs/PatternRead.lean ====
section
/-! PROOF. PATTERN_READ and the loss of a step word's parity (R70, R82, R85). -/

namespace Sys2Proof.Machine

section
variable {s : State} {p : Port} {r : Request} {rest : List Request} {number : PatNo} {offset count : Nat} {l : Layout}

/-! ### The fields of the request (R82) -/

theorem readFields_of_range {number offset count : Byte}
    (h : 31 < number.toNat ∨ 127 < offset.toNat ∨ count.toNat = 0 ∨ 8 < count.toNat) :
    readFields [number, offset, count] = none := by
  simp only [readFields]
  by_cases hn : 31 < number.toNat
  · rw [patternField_of_le hn]
  · rw [patternField_of_lt (by omega)]
    exact if_pos (by omega)

theorem readFields_of_inRange (number : PatNo) (ho : offset ≤ 127) (h1 : 1 ≤ count) (h8 : count ≤ 8) :
    readFields [byte number.val, byte offset, byte count] = some (number, offset, count) := by
  have hoffset := byte_toNat_of_lt (n := offset) (by omega)
  have hcount := byte_toNat_of_lt (n := count) (by omega)
  simp only [readFields, patternField_byte, hoffset, hcount]
  exact if_neg (by omega)

/-! ### The steps read (R82) -/

theorem State.readSteps_of_user (hu : isBuiltIn number = false) {start : Nat} (hl : l.start = some start) :
    s.readSteps number l offset count =
      (List.range count).map fun k => ((s.word (start + offset + k)).step, (s.word (start + offset + k)).good) := by
  simp only [State.readSteps, hu, hl, Option.getD_some, Bool.false_eq_true, if_false]

theorem readBytes_of_user (hu : isBuiltIn number = false) {start : Nat} (hl : l.start = some start) :
    readBytes (s.readSteps number l offset count) =
      byte count :: (List.range count).flatMap fun k =>
        stepAsRead (s.word (start + offset + k)).step (s.word (start + offset + k)).good := by
  rw [State.readSteps_of_user hu hl, readBytes, List.length_map, List.length_range, List.flatMap_map]

theorem State.readSteps_all_good (hu : isBuiltIn number = false) {start : Nat} (hl : l.start = some start) :
    (s.readSteps number l offset count).all (fun x => x.2) = true ↔
      ¬ ∃ k, k < count ∧ (s.word (start + offset + k)).ones % 2 = 1 := by
  rw [State.readSteps_of_user hu hl]
  simp [StepWord.good]

theorem readBytes_of_builtIn (hb : isBuiltIn number = true) (hl : offset + count ≤ (builtInSteps number).length) :
    readBytes (s.readSteps number l offset count) =
      byte count :: (((builtInSteps number).drop offset).take count).flatMap fun st => stepAsRead st true := by
  have hsteps : s.readSteps number l offset count =
      (((builtInSteps number).drop offset).take count).map fun st => (st, true) := by
    rw [State.readSteps_of_builtIn hb]
    refine List.ext_getElem ?_ fun k hk _ => ?_
    · simp
      omega
    · have hk : offset + k < (builtInSteps number).length := by
        simp at hk
        omega
      simp [builtInStep, List.getD_eq_getElem?_getD, hk]
  rw [hsteps, readBytes, List.length_map, List.length_take_of_le (by simp; omega), List.flatMap_map]

/-! ### The request -/

theorem serviceOf_patternRead_of_range (h : s.Taking .patternRead p r rest) (hf : readFields r.payload = none) :
    serviceOf .patternRead p r.payload (s.removeRequest p) = (s.removeRequest p).refuse .badValue := by
  simp only [serviceOf, servePatternRead, h.gate_any, hf]

theorem serviceOf_patternRead_of_unread (h : s.Taking .patternRead p r rest)
    (hf : readFields r.payload = some (number, offset, count))
    (hb : (s.entry number).body = .empty ∨ ∃ l fill, (s.entry number).body = .loading l fill) :
    serviceOf .patternRead p r.payload (s.removeRequest p) = (s.removeRequest p).refuse .wrongState := by
  obtain hb | ⟨l, fill, hb⟩ := hb <;>
    simp only [serviceOf, servePatternRead, h.gate_any, hf, State.removeRequest_entry, hb]

theorem serviceOf_patternRead_of_beyond (h : s.Taking .patternRead p r rest)
    (hf : readFields r.payload = some (number, offset, count))
    (hb : (s.entry number).body = .ready l ∨ (s.entry number).body = .damaged l) (hl : l.length < offset + count) :
    serviceOf .patternRead p r.payload (s.removeRequest p) = (s.removeRequest p).refuse .badValue := by
  obtain hb | hb := hb <;>
    simp only [serviceOf, servePatternRead, h.gate_any, hf, State.removeRequest_entry, hb, if_pos hl]

/-- A read that finds every step's parity good, or reads a DAMAGED entry, changes nothing (R82). -/
theorem exec_patternRead_intact (h : s.Taking .patternRead p r rest)
    (hf : readFields r.payload = some (number, offset, count)) (hl : offset + count ≤ l.length)
    (hb : (s.entry number).body = .damaged l ∨
      ((s.entry number).body = .ready l ∧ (s.readSteps number l offset count).all (fun x => x.2) = true)) :
    exec .patternRead s = .next
      ((s.removeRequest p).answered p r (readBytes (s.readSteps number l offset count))) := by
  refine h.served (c := .patternRead) (by decide) ?_
  obtain hb | ⟨hb, hgood⟩ := hb
  · simp only [serviceOf, servePatternRead, h.gate_any, hf, State.removeRequest_entry, hb, if_neg hl.not_gt]
    rfl
  · simp only [serviceOf, servePatternRead, h.gate_any, hf, State.removeRequest_entry, hb, if_neg hl.not_gt]
    exact if_pos hgood

/-- A read that finds bad parity in a READY entry marks it before the reply (R85). -/
theorem exec_patternRead_bad (h : s.Taking .patternRead p r rest)
    (hf : readFields r.payload = some (number, offset, count)) (hl : offset + count ≤ l.length)
    (hb : (s.entry number).body = .ready l)
    (hbad : ¬ (s.readSteps number l offset count).all (fun x => x.2) = true) :
    exec .patternRead s = .next
      ((State.arbitrateIf ((s.removeRequest p).markDamaged number (.port p))).answered p r
        (readBytes (s.readSteps number l offset count))) := by
  refine h.served (c := .patternRead) (by decide) ?_
  simp only [serviceOf, servePatternRead, h.gate_any, hf, State.removeRequest_entry, hb, if_neg hl.not_gt]
  exact if_neg hbad

theorem State.markDamaged_of_ready (hb : (s.entry number).body = .ready l) (source : Source) :
    s.markDamaged number source =
      if s.damagedCount = 0 then
        ((s.setEntry number { s.entry number with body := .damaged l }).post (.patternState number source)).internalRaise
          storeFaultSlot (s.storeFaultFields number)
      else ((s.setEntry number { s.entry number with body := .damaged l }).post (.patternState number source), false) := by
  simp only [State.markDamaged, hb]
  rfl

/-! ### A fault of the Step Store (R70) -/

theorem StepWord.ones_spoiled (w : StepWord) : w.spoiled.ones % 2 = 1 := by
  obtain ⟨hbad, _⟩ := w.spoiled_bad
  simpa [StepWord.good] using hbad

theorem StepWord.spoiled_ne_unlisted (w : StepWord) : w.spoiled ≠ Store.unlisted := fun h =>
  absurd (h ▸ w.ones_spoiled) (by decide)

/-- Settles O31. -/
theorem parityIsLostAndFound : Obligations.ParityIsLostAndFound := by
  have hmem : (Instr.patternRead, Kind.patternRead) ∈ requestCommands := by decide
  refine ⟨fun s p r rest number offset count h hp hr => h.refused hmem
      (serviceOf_patternRead_of_range h (hp ▸ readFields_of_range hr)), ?_, fun s index hi => ?_,
    fun s index hi => if_neg (by simpa [Config.stepWords] using hi)⟩
  · intro s p r rest number offset count h hp ho h1 h8 answer asStored
    have hf := hp ▸ readFields_of_inRange number ho h1 h8
    refine ⟨fun hb => h.refused hmem (serviceOf_patternRead_of_unread h hf hb),
      fun l hb hl => h.refused hmem (serviceOf_patternRead_of_beyond h hf hb hl), fun l hu hb hl hlength => ?_,
      fun l start hu hstart hl => ?_⟩
    · have hgood : (s.readSteps number l offset count).all (fun x => x.2) = true := by
        simp [State.readSteps_of_builtIn hu]
      refine (exec_patternRead_intact h hf hl (.inr ⟨hb, hgood⟩)).trans ?_
      rw [readBytes_of_builtIn hu (hlength ▸ hl)]
    · have hgood := State.readSteps_all_good (s := s) (offset := offset) (count := count) hu hstart
      have hbytes : readBytes (s.readSteps number l offset count) = asStored start := readBytes_of_user hu hstart
      refine ⟨fun hb => ?_, fun ⟨hb, hbad⟩ => ?_⟩
      · rw [← hgood] at hb
        exact (exec_patternRead_intact h hf hl hb).trans (by rw [hbytes])
      · have hread := exec_patternRead_bad h hf hl hb (by rw [hgood]; exact not_not.mpr hbad)
        rw [hbytes, State.markDamaged_of_ready (s := s.removeRequest p) hb] at hread
        refine ⟨fun hd => hread.trans ?_, fun hd => hread.trans ?_⟩
        · rw [if_neg (show ¬ (s.removeRequest p).damagedCount = 0 from hd.ne')]
          rfl
        · rw [if_pos (show (s.removeRequest p).damagedCount = 0 from hd)]
          rfl
  · have hi' : index < Config.stepWords := hi
    refine ⟨s.store.write index (s.word index).spoiled, ?_, ?_, ?_, fun a ha => Store.read_write_other _ _ _ _ ha⟩
    · change execStepWordParityLoss index s = _
      rw [execStepWordParityLoss, if_pos hi', State.setWord, if_pos hi']
    all_goals rw [Store.read_write_listed _ _ _ (s.word index).spoiled_ne_unlisted]
    · exact (s.word index).ones_spoiled
    · exact (s.word index).spoiled_bad.2

end

end Sys2Proof.Machine
end


-- ==== Sys2Proof/Proofs/LineSamples.lean ====
section
/-! PROOF. LINE_SAMPLE (R106 to R111): the class of a sample, and what it makes of the Line Monitor. -/

namespace Sys2Proof.Machine

section
variable {s : State} {sense : Byte} {loop : Loop} {kind : FaultKind}

/-! ### The class of a sample (R106 to R108) -/

theorem State.sampleClass_open_iff (s : State) (sense : Byte) (loop : Loop) :
    s.sampleClass sense loop = some .openLine ↔
      (s.drive.isSome = true ∧ sense.toNat < s.params.senseLow) ∨ (s.drive = none ∧ loop = .noContinuity) := by
  unfold State.sampleClass Params.driveClass
  cases s.drive with
  | none => cases loop <;> simp [idleClass]
  | some d =>
    by_cases hl : sense.toNat < s.params.senseLow
    · simp [hl]
    · by_cases hh : s.params.senseHigh < sense.toNat <;> simp [hl, hh]

theorem State.sampleClass_short_iff (s : State) (sense : Byte) (loop : Loop) :
    s.sampleClass sense loop = some .short ↔
      (s.drive.isSome = true ∧ s.params.senseLow ≤ sense.toNat ∧ s.params.senseHigh < sense.toNat) ∨
        (s.drive = none ∧ loop = .lowPath) := by
  unfold State.sampleClass Params.driveClass
  cases s.drive with
  | none => cases loop <;> simp [idleClass]
  | some d =>
    by_cases hl : sense.toNat < s.params.senseLow
    · simp [hl]
    · by_cases hh : s.params.senseHigh < sense.toNat <;> simp [hl, hh, not_lt.mp hl]

theorem State.sampleClass_eq_none (ho : s.sampleClass sense loop ≠ some .openLine)
    (hs : s.sampleClass sense loop ≠ some .short) : s.sampleClass sense loop = none := by
  cases h : s.sampleClass sense loop with
  | none => rfl
  | some kind =>
    cases kind with
    | openLine => exact absurd h ho
    | short => exact absurd h hs

/-! ### What a sample does (R109 to R111, Table 6.2) -/

theorem exec_lineSample_of_due (h : s.lineTimer = some 0) (sense : Byte) (loop : Loop) :
    exec (.lineSample sense loop) s =
      .next (State.actOnSample { s with lineTimer := some 100 } (s.sampleClass sense loop)) :=
  congrArg Host.Outcome.next (if_pos h)

theorem State.actOnSample_ok {bad : Nat} (h : s.line = .normal bad) : s.actOnSample none = s.setLine (.normal 0) := by
  simp only [State.actOnSample, h]

theorem State.actOnSample_bad {bad : Nat} (h : s.line = .normal bad) (kind : FaultKind) :
    s.actOnSample (some kind) = if bad < 3 then s.setLine (.normal (bad + 1)) else s.declareFault kind := by
  simp only [State.actOnSample, h]

theorem State.actOnSample_ok_of_fault {ok : Nat} (h : s.line = .fault kind ok) :
    s.actOnSample none = if ok < 15 then s.setLine (.fault kind (ok + 1)) else s.clearFault := by
  simp only [State.actOnSample, h]

theorem State.actOnSample_open_of_fault {ok : Nat} (h : s.line = .fault kind ok) :
    s.actOnSample (some .openLine) = s.setLine (.fault kind 0) := by
  simp only [State.actOnSample, h]

theorem State.actOnSample_short_of_fault {ok : Nat} (h : s.line = .fault kind ok) :
    s.actOnSample (some .short) = s.setLine (.fault .short 0) := by
  simp only [State.actOnSample, h]

theorem State.declareFault_eq (s : State) (kind : FaultKind) :
    s.declareFault kind =
      State.arbitrateIf ((s.setLine (.fault kind 0)).internalRaise sounderFaultSlot (s.sounderFaultFields kind)) := by
  have hfields : (s.setLine (.fault kind 0)).sounderFaultFields kind = s.sounderFaultFields kind := by
    rw [State.sounderFaultFields, State.sounderFaultFields, State.setLine_params]
  rw [State.declareFault, hfields]

/-- Settles O32. -/
theorem lineSamplesDeclareAndClearFaults : Obligations.LineSamplesDeclareAndClearFaults := by
  refine ⟨fun s sense loop h => congrArg Host.Outcome.next (if_neg h), ?_, ?_, ?_⟩
  · intro s sense loop h isOpen isShort becomes
    have hopen := s.sampleClass_open_iff sense loop
    have hshort := s.sampleClass_short_iff sense loop
    have hact : ∀ line, State.actOnSample { s with lineTimer := some 100 } (s.sampleClass sense loop) =
        State.setLine { s with lineTimer := some 100 } line → becomes line := fun line ha =>
      (exec_lineSample_of_due h sense loop).trans (congrArg Host.Outcome.next ha)
    refine ⟨fun bad hl ho hs => hact _ ?_, fun bad hl hbad hc => hact _ ?_, fun kind ok hl hok ho hs => hact _ ?_,
      fun kind ok hl ho => hact _ ?_, fun kind ok hl hs => hact _ ?_⟩
    · rw [State.sampleClass_eq_none (hopen.not.mpr ho) (hshort.not.mpr hs)]
      exact State.actOnSample_ok hl
    · obtain ⟨kind, hkind⟩ : ∃ kind, s.sampleClass sense loop = some kind := by
        obtain ho | hs := hc
        · exact ⟨_, hopen.mpr ho⟩
        · exact ⟨_, hshort.mpr hs⟩
      rw [hkind]
      exact (State.actOnSample_bad (s := { s with lineTimer := some 100 }) hl kind).trans (if_pos hbad)
    · rw [State.sampleClass_eq_none (hopen.not.mpr ho) (hshort.not.mpr hs)]
      exact (State.actOnSample_ok_of_fault (s := { s with lineTimer := some 100 }) hl).trans (if_pos hok)
    · rw [hopen.mpr ho]
      exact State.actOnSample_open_of_fault hl
    · rw [hshort.mpr hs]
      exact State.actOnSample_short_of_fault hl
  · intro s sense loop kind h hl hclass raised
    have hsampled : s.sampleClass sense loop = some kind := by
      unfold State.sampleClass Params.driveClass
      split_ifs at hclass ⊢ with hd hlow hhigh
      · rw [hclass]
      · rw [hclass.2]
      · exact absurd hclass.1 hhigh
      · obtain ⟨rfl, rfl⟩ | ⟨rfl, rfl⟩ := hclass <;> rfl
    rw [exec_lineSample_of_due h, hsampled,
      State.actOnSample_bad (s := { s with lineTimer := some 100 }) hl kind, if_neg (by omega),
      State.declareFault_eq]
    cases kind <;> rfl
  · intro s sense loop kind h hl hclass returned
    have hsampled : s.sampleClass sense loop = none := by
      unfold State.sampleClass Params.driveClass
      split_ifs at hclass ⊢ with hd hlow hhigh
      · exact absurd hlow (by omega)
      · exact absurd hhigh (by omega)
      · rfl
      · rw [hclass]
        rfl
    rw [exec_lineSample_of_due h, hsampled,
      State.actOnSample_ok_of_fault (s := { s with lineTimer := some 100 }) hl, if_neg (by omega)]
    rfl

end

end Sys2Proof.Machine
end


-- ==== Sys2Proof/Proofs/Transactions.lean ====
section
/-! PROOF. The SPI transaction of a port: its beginning, its bits and its end (R117 to R125, R131, R152). -/

namespace Sys2Proof.Machine

/-! ### The beginning (R117, R119) -/

/-- The status byte's fields: the session, the last-outcome, whether a reply waits, whether an event waits (R117). -/
theorem PortState.statusByte_fields (x : PortState) :
    (x.statusByte.extractLsb' 6 2).toNat = x.session.code.toNat ∧
      (x.statusByte.extractLsb' 4 2).toNat = x.lastOutcome.code ∧
      x.statusByte.getLsbD 3 = !x.replies.isEmpty ∧ x.statusByte.getLsbD 2 = !x.events.isEmpty ∧
      x.statusByte.extractLsb' 0 2 = 0#2 := by
  unfold PortState.statusByte
  generalize (!x.replies.isEmpty) = replies, (!x.events.isEmpty) = events
  revert replies events
  cases x.session <;> cases x.lastOutcome <;> decide

section
variable {s : State} {p : Port} {x : Transaction}

theorem exec_chipSelectFall (hl : (s.port p).selectLow = false) (hr : s.inReset = false) :
    exec (.chipSelectFall p) s = .next (s.setPort p (s.port p).beginTransaction) := by
  change execChipSelectFall p s = _
  simp only [execChipSelectFall, hl, hr, Bool.false_eq_true, if_false]

/-- Where the frame of an event comes from: an OVERRUN entry with the count sent (R119, R152). -/
def Event.sentFrom : Event → FrameFrom
  | .overrun count => .overrun count
  | _ => .event

theorem PortState.outbound_of_event {y : PortState} {event : Event} {others : List Event} (hr : y.replies = [])
    (he : y.events = event :: others) :
    y.outbound.1 = event.frame ∧ y.outbound.2 = event.sentFrom := by
  cases event <;> simp only [PortState.outbound, hr, he, Event.sentFrom, and_self]

/-! ### The bits (R118) -/

theorem exec_sckRisingEdge (h : (s.port p).transaction = some x) (sdi : Level) :
    exec (.sckRisingEdge p sdi) s =
      .next (s.setPort p { s.port p with transaction := some (x.clockBit (decide (sdi = .high))) }) := by
  change execSckRisingEdge p sdi s = _
  simp only [execSckRisingEdge, h]

theorem State.setPort_setPort (s : State) (p : Port) (x y : PortState) :
    (s.setPort p x).setPort p y = s.setPort p y := by
  simp only [State.setPort, Vector.set_set]

theorem State.setPort_self (s : State) (p : Port) : s.setPort p (s.port p) = s := by
  simp only [State.setPort, State.port, Fin.getElem_fin, Vector.set_getElem_self]

/-- The state with another transaction in progress at the port. -/
def State.clocking (s : State) (p : Port) (x : Transaction) : State :=
  s.setPort p { s.port p with transaction := some x }

theorem exec_sckRisingEdge_clocking (s : State) (p : Port) (x : Transaction) (bit : Bool) :
    exec (.sckRisingEdge p (if bit then .high else .low)) (s.clocking p x) = .next (s.clocking p (x.clockBit bit)) := by
  have hlevel : decide ((if bit then Level.high else Level.low) = .high) = bit := by cases bit <;> rfl
  have hport : (s.clocking p x).port p = { s.port p with transaction := some x } := by
    rw [State.clocking, State.port_setPort, if_pos rfl]
  rw [exec_sckRisingEdge (x := x) (by rw [hport]), hport, hlevel, State.clocking, State.setPort_setPort]
  rfl

/-- A run of rising edges clocks its bits in, one after another. -/
theorem foldl_sckRisingEdge (s : State) (p : Port) (x : Transaction) (bit : Nat → Bool) (l : List Nat) :
    l.foldl
        (fun answered k => match answered with
          | Host.Outcome.next t => exec (.sckRisingEdge p (if bit k then .high else .low)) t
          | stopped => stopped) (Host.Outcome.next (s.clocking p x)) =
      .next (s.clocking p (l.foldl (fun y k => y.clockBit (bit k)) x)) := by
  induction l generalizing x with
  | nil => rfl
  | cons k l ih => simp only [List.foldl_cons, exec_sckRisingEdge_clocking, ih]

theorem byteOfBits_getLsbD : ∀ b : Byte,
    byteOfBits [b.getLsbD 7, b.getLsbD 6, b.getLsbD 5, b.getLsbD 4, b.getLsbD 3, b.getLsbD 2, b.getLsbD 1,
      b.getLsbD 0] = b := by
  decide

/-- Eight bits, the first the most significant, make a byte whole (R118). -/
theorem Transaction.clock_byte (h : x.bits = []) (b : Byte) :
    [7, 6, 5, 4, 3, 2, 1, 0].foldl (fun y k => y.clockBit (b.getLsbD k)) x =
      { x with received := x.received ++ [b], bits := [] } := by
  simpa [Transaction.clockBit, h] using byteOfBits_getLsbD b

theorem State.sdo_of_transaction (h : (s.port p).transaction = some x) :
    s.sdo p = some (x.sending.getLsbD (7 - x.bits.length)) := by
  rw [State.sdo, h]
  rfl

theorem Transaction.sending_eq {sent : Byte}
    (h : (x.received = [] ∧ sent = x.status) ∨
      ∃ k, x.received.length = k + 1 ∧ (x.frame[k]? = some sent ∨ (x.frame.length ≤ k ∧ sent = 0x00#8))) :
    x.sending = sent := by
  unfold Transaction.sending
  obtain ⟨hr, rfl⟩ | ⟨k, hr, hf⟩ := h
  · rw [hr]
    rfl
  · rw [hr, List.getD_cons_succ, List.getD_eq_getElem?_getD]
    obtain hf | ⟨hlong, rfl⟩ := hf
    · rw [hf, Option.getD_some]
    · rw [List.getElem?_eq_none hlong, Option.getD_none]

/-- Settles O33. -/
theorem transactionsBeginAndClock : Obligations.TransactionsBeginAndClock := by
  refine ⟨fun s p => ⟨fun hl => ?_, fun hl hr => ?_⟩, fun s p hl hr => ?_, fun s p x b hx hbits => ?_,
    fun s p x sdi hx hbits => ?_, fun s p sdi hx => ⟨?_, ?_⟩, fun s p x sent hx hsent => ?_⟩
  · exact congrArg Host.Outcome.next (if_pos hl)
  · change execChipSelectFall p s = _
    simp only [execChipSelectFall, hl, hr, Bool.false_eq_true, if_false, if_true]
  · obtain ⟨hsession, houtcome, hreplies, hevents, hlow⟩ := (s.port p).statusByte_fields
    refine ⟨_, _, exec_chipSelectFall hl hr, rfl, rfl, rfl, hsession.trans ?_, houtcome.trans ?_, ?_, ?_, hlow,
      fun reply others h => ?_, fun event others hr he => ?_, fun hr he => ?_⟩
    · cases (s.port p).session <;> rfl
    · cases (s.port p).lastOutcome <;> rfl
    · simp only [hreplies]
      simp
    · simp only [hevents]
      simp
    · simp only [PortState.outbound, h, and_self]
    · exact PortState.outbound_of_event hr he
    · simp only [PortState.outbound, hr, he, and_true]
      rfl
  · have hself : s.clocking p x = s := by
      rw [State.clocking, ← hx]
      exact s.setPort_self p
    have hrun := foldl_sckRisingEdge s p x b.getLsbD [7, 6, 5, 4, 3, 2, 1, 0]
    rw [hself, Transaction.clock_byte hbits] at hrun
    exact hrun
  · rw [exec_sckRisingEdge hx, Transaction.clockBit, if_pos hbits]
  · change execSckRisingEdge p sdi s = _
    simp only [execSckRisingEdge, hx]
  · rw [State.sdo, hx]
    rfl
  · rw [State.sdo_of_transaction hx, Transaction.sending_eq hsent]

/-! ### The end (R118, R120 to R123, R131, R152) -/

theorem exec_chipSelectRise (s : State) (p : Port) :
    exec (.chipSelectRise p) s = .next (s.setPort p ((s.port p).endTransaction s.params)) := rfl

theorem PortState.restartKeepalive_eq (y : PortState) (c : Params) :
    y.restartKeepalive c =
      { y with keepalive := if y.session = .opened then c.keepaliveStart else y.keepalive } := by
  unfold PortState.restartKeepalive
  split <;> rfl

theorem PortState.offerRequest_of_room {y : PortState} (h : y.load < 4) (r : Request) :
    y.offerRequest r = { y with inbound := y.inbound ++ [r], lastOutcome := .accepted } := if_pos h

theorem PortState.offerRequest_of_full {y : PortState} (h : 4 ≤ y.load) (r : Request) :
    y.offerRequest r = { y with lastOutcome := .full } := if_neg h.not_gt

theorem PortState.removeOutbound_of_kept {y : PortState} (h : x.received.length < x.frame.length + 1) :
    y.removeOutbound x = y := if_neg (by simp [Transaction.clockedAll]; omega)

theorem PortState.removeOutbound_of_clocked (y : PortState) (h : ¬ x.received.length < x.frame.length + 1) :
    (x.source = .reply → y.removeOutbound x = { y with replies := y.replies.tail }) ∧
      (x.source = .event → y.removeOutbound x = { y with events := y.events.tail }) ∧
      (∀ sent, x.source = .overrun sent → y.removeOutbound x = { y with events := readOutOverrun sent y.events }) ∧
      (x.source = .nothing ∨ x.source = .emptied → y.removeOutbound x = y) := by
  have hall : x.clockedAll = true := by simp [Transaction.clockedAll]; omega
  unfold PortState.removeOutbound
  rw [if_pos hall]
  refine ⟨fun h => ?_, fun h => ?_, fun sent h => ?_, fun h => ?_⟩
  · rw [h]
  · rw [h]
  · rw [h]
  · obtain h | h := h <;> rw [h]

/-- Settles O35. -/
theorem chipSelectRiseEndsTheTransaction : Obligations.ChipSelectRiseEndsTheTransaction := by
  refine ⟨fun s p h => ?_, fun s p x hx => ?_⟩
  · simp only [exec_chipSelectRise, PortState.endTransaction, h]
  intro ended interval rises kept
  refine ⟨fun hr => ?_, fun hr => ⟨ended.removeOutbound x, PortState.removeOutbound_of_kept, fun hk => ?_, ?_⟩⟩
  · change exec (.chipSelectRise p) s = _
    rw [exec_chipSelectRise, PortState.endTransaction, hx]
    simp only [hr, List.isEmpty_nil, if_true]
    rfl
  · obtain ⟨hreply, hevent, hoverrun, hnothing⟩ := PortState.removeOutbound_of_clocked ended hk
    refine ⟨hreply, hevent, fun sent rest hs he => ?_, fun sent count rest hs he hne => ?_, hnothing⟩
    · rw [hoverrun sent hs, he, readOutOverrun, if_pos rfl]
    · rw [hoverrun sent hs, he, readOutOverrun, if_neg hne]
  · have hrise : ∀ z, (ended.removeOutbound x).judgeFrame s.params x.received = z → rises z := by
      rintro z rfl
      change exec (.chipSelectRise p) s = _
      rw [exec_chipSelectRise, PortState.endTransaction, hx]
      simp only [List.isEmpty_eq_false_iff.mpr hr, Bool.false_eq_true, if_false]
      rfl
    refine ⟨fun hj => hrise _ ?_, fun hj => hrise _ ?_, fun r hj hroom => hrise _ ?_, fun r hj hfull => hrise _ ?_⟩
    · simp only [PortState.judgeFrame, hj]
    · simp only [PortState.judgeFrame, hj, PortState.restartKeepalive_eq]
      rfl
    · simp only [PortState.judgeFrame, hj, PortState.restartKeepalive_eq, PortState.offerRequest_of_room hroom]
      rfl
    · simp only [PortState.judgeFrame, hj, PortState.restartKeepalive_eq, PortState.offerRequest_of_full hfull]
      rfl

end

end Sys2Proof.Machine
end


-- ==== Sys2Proof/Proofs/FrameFormats.lean ====
section
/-! PROOF. The CRC-8 and the judgement of inbound frames (R121, R122, R165), and the formats of chapter 11's tables
(R164, R167 to R169). -/

namespace Sys2Proof.Machine

/-! ### The CRC-8 (R165) -/

/-- The remainder before a shift: bit 0 tells whether 0x07 was combined. -/
def crcUnshift (r : Byte) : Byte := if r.getLsbD 0 then ((r ^^^ 0x07#8) >>> 1) ||| 0x80#8 else r >>> 1

theorem crcUnshift_crcShift : ∀ r, crcUnshift (crcShift r) = r := by decide

theorem crcShift_injective : Function.Injective crcShift := Function.LeftInverse.injective crcUnshift_crcShift

theorem crcByte_injective_remainder (b : Byte) : Function.Injective (crcByte · b) := fun _ _ h =>
  (BitVec.xor_left_inj b).mp (crcShift_injective.iterate 8 h)

theorem crcByte_injective_byte (r : Byte) : Function.Injective (crcByte r) := fun _ _ h =>
  (BitVec.xor_right_inj r).mp (crcShift_injective.iterate 8 h)

theorem foldl_crcByte_injective (covered : List Byte) : Function.Injective (covered.foldl crcByte) := by
  induction covered with
  | nil => exact fun _ _ h => h
  | cons b covered ih => exact fun r r' h => crcByte_injective_remainder b (ih h)

/-- No change of one covered byte keeps the CRC. -/
theorem crc8_ne_of_byte_ne (before after : List Byte) {b b' : Byte} (h : b ≠ b') :
    crc8 (before ++ b :: after) ≠ crc8 (before ++ b' :: after) := by
  simp only [crc8, List.foldl_append, List.foldl_cons]
  exact fun heq => h (crcByte_injective_byte _ (foldl_crcByte_injective after heq))

theorem crcShift_eq : crcShift = fun r : Byte => if r.getLsbD 7 then (r <<< 1) ^^^ 0x07#8 else r <<< 1 := by
  funext r
  rw [crcShift, BitVec.msb_eq_getLsbD_last]

theorem crc8_concat (before : List Byte) (b : Byte) : crc8 (before ++ [b]) = crcShift^[8] (crc8 before ^^^ b) := by
  simp only [crc8, List.foldl_append, List.foldl_cons, List.foldl_nil, crcByte]

/-! ### The judgement of a frame (R121, R122) -/

/-- A frame with room for its payload is judged by its CRC byte, then by its kind. -/
theorem judge_framed (kind seq c : Byte) {payload : List Byte} (after : List Byte) (h : payload.length ≤ 32) :
    judge ([kind, seq, byte payload.length] ++ payload ++ [c] ++ after) =
      if c ≠ crc8 ([kind, seq, byte payload.length] ++ payload) then .frameError
      else if kind = 0#8 then (if payload ≠ [] then .frameError else .nullFrame)
      else .request { kind := kind, seq := seq, payload := payload } := by
  have hlength : (byte payload.length).toNat = payload.length := byte_toNat_of_lt (by omega)
  have hrest : [kind, seq, byte payload.length] ++ payload ++ [c] ++ after =
      kind :: seq :: byte payload.length :: (payload ++ c :: after) := by simp
  have hroom : ¬ (payload ++ c :: after).length < payload.length + 1 := by simp
  rw [hrest, judge, hlength]
  simp only [hroom, if_false, h.not_gt, List.take_left', List.getElem?_append_right le_rfl, Nat.sub_self,
    List.getElem?_cons_zero, ne_eq, Option.some.injEq, List.length_eq_zero_iff]
  rfl

theorem judge_of_short {received : List Byte} (h : received.length < 3) : judge received = .frameError := by
  match received with
  | [] | [_] | [_, _] => rfl
  | _ :: _ :: _ :: _ => simp at h; omega

theorem judge_of_length {kind seq len : Byte} {rest : List Byte} (h : rest.length < len.toNat + 1 ∨ 32 < len.toNat) :
    judge (kind :: seq :: len :: rest) = .frameError := by
  obtain hshort | hlong := h
  · exact if_pos hshort
  · rw [judge]
    dsimp only
    rw [if_pos (show len.toNat > 32 from hlong), ite_self]

/-- Settles O34. -/
theorem framesAreJudged : Obligations.FramesAreJudged := by
  refine ⟨fun kind seq payload after h => ?_, fun received => judge_of_short, fun kind seq len rest => judge_of_length,
    fun before after b b' => crc8_ne_of_byte_ne before after, rfl, fun before b => ?_, by simp [crc8, crcByte, crcShift, BitVec.msb]⟩
  · have hjudged := fun c => judge_framed kind seq c after h
    refine ⟨fun hk => ?_, fun hk hp => ?_, fun hk hp => ?_, fun wrong hw => ?_⟩
    · rw [hjudged, if_neg (not_not.mpr rfl), if_neg hk]
    · rw [hjudged, if_neg (not_not.mpr rfl), if_pos hk, if_neg (not_not.mpr hp)]
    · rw [hjudged, if_neg (not_not.mpr rfl), if_pos hk, if_pos hp]
    · rw [hjudged, if_pos hw]
  · rw [crc8_concat, crcShift_eq]

/-! ### Reply and event frames (R164, R169) -/

theorem Event.frame_eq {e : Event} {kind : Byte} {payload : List Byte} (hk : e.kindCode = kind)
    (hp : e.payload = payload) :
    e.frame = [0x02#8, kind, BitVec.ofNat 8 payload.length] ++ payload ++
      [crc8 ([0x02#8, kind, BitVec.ofNat 8 payload.length] ++ payload)] := by
  subst hk hp
  rfl

theorem Source.code_eq (source : Source) :
    source.code =
      match source with | .port p => BitVec.ofNat 8 p.val | .internal => 4#8 | .panel => 5#8 | .timer => 6#8 := by
  cases source <;> rfl

theorem RecordRef.bytes_eq (x : RecordRef) :
    x.bytes =
      [BitVec.ofNat 8 x.handle.slot.val, x.handle.generation,
        match x.origin with | .host p => BitVec.ofNat 8 p.val | .internal => 4#8,
        BitVec.ofNat 8 (x.tag.toNat / 256), BitVec.ofNat 8 x.tag.toNat, BitVec.ofNat 8 x.priority] := by
  obtain ⟨handle, _ | _, tag, priority⟩ := x <;> rfl

theorem bytes2_of_lt {n : Nat} (h : n < 256) : bytes2 n = [0#8, byte n] := by
  rw [bytes2, Nat.div_eq_of_lt h]
  rfl

/-! ### Request kinds and lengths (R168, Table 11.6) -/

theorem kindOf_eq_some_iff (b : Byte) (k : Kind) : kindOf b = some k ↔ b = kindCode k := by
  constructor
  · intro h
    simpa [eq_comm] using List.find?_some h
  · rintro rfl
    cases k <;> rfl

theorem lengthOk_patternAppend_iff (payload : List Byte) :
    lengthOk .patternAppend payload = true ↔
      ∃ number count steps, payload = number :: count :: steps ∧ steps.length = 2 * count.toNat := by
  match payload with
  | [] | [_] => simp [lengthOk]
  | number :: count :: steps =>
    simp only [lengthOk, List.length_cons, decide_eq_true_eq, List.cons.injEq]
    constructor
    · intro h
      exact ⟨number, count, steps, ⟨rfl, rfl, rfl⟩, by omega⟩
    · rintro ⟨number', count', steps', ⟨rfl, rfl, rfl⟩, h⟩
      omega

/-! ### Steps (R51, Table 11.4) -/

theorem stepFields_flatMap (pairs : List (Byte × Byte)) :
    stepFields (pairs.flatMap fun x => [x.1, x.2]) = pairs.map fun x => stepField x.1 x.2 := by
  induction pairs with
  | nil => rfl
  | cons x pairs ih => rw [List.flatMap_cons, List.map_cons, ← ih]; rfl

theorem appendFields_of_pairs {number count : Byte} {pairs : List (Byte × Byte)} (hn : number.toNat < 32)
    (hc : count.toNat = pairs.length) (h1 : 1 ≤ pairs.length) (h8 : pairs.length ≤ 8) :
    appendFields (number :: count :: pairs.flatMap fun x => [x.1, x.2]) =
      some (⟨number.toNat, hn⟩, pairs.map fun x => stepField x.1 x.2) := by
  simp only [appendFields, patternField_of_lt hn, stepFields_flatMap]
  exact if_neg (by omega)

theorem byte_extract (n start len : Nat) :
    ((byte n).extractLsb' start len).toNat = n % 256 / 2 ^ start % 2 ^ len := by
  simp [byte, BitVec.extractLsb'_toNat, Nat.shiftRight_eq_div_pow]

theorem byte_getLsbD {n k : Nat} (hk : k < 8) : (byte n).getLsbD k = decide (n / 2 ^ k % 2 = 1) := by
  rw [byte, BitVec.getLsbD_ofNat, Nat.testBit_eq_decide_div_mod_eq, decide_eq_true hk, Bool.true_and]

theorem stepAsRead_fields (st : Step) (good : Bool) :
    ∃ first second : Byte, stepAsRead st good = [first, second] ∧
      first.extractLsb' 3 5 = st.tone ∧ first.extractLsb' 1 2 = st.level ∧ first.getLsbD 0 = false ∧
      second.extractLsb' 0 6 = st.units ∧ second.getLsbD 6 = false ∧ second.getLsbD 7 = good := by
  have htone : st.tone.toNat < 32 := st.tone.isLt
  have hlevel : st.level.toNat < 4 := st.level.isLt
  have hunits : st.units.toNat < 64 := st.units.isLt
  have hflag : flagBit good 7 = 128 * good.toNat := flagBit_eq good 7
  have hgood : good.toNat ≤ 1 := Bool.toNat_le good
  refine ⟨_, _, rfl, BitVec.eq_of_toNat_eq ?_, BitVec.eq_of_toNat_eq ?_, ?_, BitVec.eq_of_toNat_eq ?_, ?_, ?_⟩
  · rw [byte_extract]; omega
  · rw [byte_extract]; omega
  · rw [byte_getLsbD (by omega), decide_eq_false_iff_not]; omega
  · rw [byte_extract, hflag]; omega
  · rw [byte_getLsbD (by omega), hflag, decide_eq_false_iff_not]; omega
  · rw [byte_getLsbD (by omega), hflag]
    cases good <;> simp only [Bool.toNat_true, Bool.toNat_false, decide_eq_true_eq, decide_eq_false_iff_not] <;> omega

/-- Settles O36. -/
theorem formatsFollowTheTables : Obligations.FormatsFollowTheTables := by
  refine ⟨fun n => ⟨rfl, rfl, rfl⟩, fun r => ⟨r.status.code, ?_, rfl⟩, fun e => ?_, fun b k => ?_,
    fun k length payload h => ?_, lengthOk_patternAppend_iff, fun number count pairs hn hc h1 h8 => ?_,
    stepAsRead_fields, fun p => rfl, rfl, rfl, rfl, fun who => ⟨rfl, ?_⟩, rfl, rfl, rfl, rfl, rfl⟩
  · cases r.status <;> decide
  · cases e with
    | record kind x source =>
      exact Event.frame_eq (by cases kind <;> rfl) (by rw [Event.payload, x.bytes_eq, source.code_eq] <;> rfl)
    | sound kind x => cases kind <;> exact Event.frame_eq rfl x.bytes_eq
    | silenced source level count => exact Event.frame_eq rfl (by rw [Event.payload, source.code_eq] <;> rfl)
    | resounded count => exact Event.frame_eq rfl rfl
    | portState p session source =>
      exact Event.frame_eq rfl (by rw [Event.payload, source.code_eq]; cases session <;> rfl)
    | patternState number source =>
      exact Event.frame_eq rfl (by rw [Event.payload, source.code_eq, bytes2_of_lt (by omega)] <;> rfl)
    | overrun count => exact Event.frame_eq rfl rfl
  · rw [kindOf_eq_some_iff]
    cases k <;> simp [kindCode]
  · have hlength : ∀ x ∈ [(Kind.hello, 0), (.bye, 0), (.subscribe, 2), (.raise, 9), (.clear, 2), (.ack, 2), (.ackAll, 0),
        (.silence, 0), (.alertInfo, 2), (.alertList, 1), (.patternDefine, 4), (.patternCommit, 1), (.patternDelete, 1),
        (.patternInfo, 1), (.patternRead, 3), (.status, 0), (.configGet, 1), (.configSet, 3)],
        (lengthOk x.1 payload = true ↔ payload.length = x.2) := by simp [lengthOk]
    exact hlength (k, length) h
  · refine ⟨_, _, appendFields_of_pairs (by omega) hc h1 h8, rfl, List.length_map _, fun k x st hx hst => ?_⟩
    rw [List.getElem?_map, hx, Option.map_some, Option.some.injEq] at hst
    subst hst
    exact ⟨rfl, rfl, rfl⟩
  · cases who <;> rfl

end Sys2Proof.Machine
end


-- ==== Sys2Proof/Proofs/LeftEntries.lean ====
section
/-! PROOF. The user entries of a port that closes or is lost (R88, R89): one entry, and the fold over the user
numbers. -/

namespace Sys2Proof.Machine

/-- The entry is LOADING and the port is its definer. -/
def Entry.loadedBy (e : Entry) (p : Port) : Bool :=
  match e.body with
  | .loading l _ => decide (l.definer = some p)
  | _ => false

/-- What the close or loss of a port makes of a user entry. -/
def Entry.left (e : Entry) (p : Port) (closing : Bool) : Entry :=
  match e.body with
  | .empty => e
  | .loading l _ => if l.definer = some p then { body := .empty, refs := 0 } else e
  | .ready l => if closing then { e with body := .ready (l.leftBy p) } else e
  | .damaged l => if closing then { e with body := .damaged (l.leftBy p) } else e

/-- The entries of a list that the port loads. -/
def State.loadingIn (s : State) (p : Port) (l : List PatNo) : List PatNo := l.filter fun n => (s.entry n).loadedBy p

/-- From s to t the entries of a list have been dealt with, and nothing else. -/
def State.EntriesLeftIn (s : State) (p : Port) (closing : Bool) (l : List PatNo) (t : State) : Prop :=
  (∀ m, t.entry m = if m ∈ l then (s.entry m).left p closing else s.entry m) ∧
  t.free = freeAll ((s.loadingIn p l).filterMap fun n => (s.entry n).extent) s.free ∧
  t.ports = (((s.loadingIn p l).map fun n => Event.patternState n (.port p)).foldl State.post s).ports ∧
  t.slots = s.slots ∧ t.arrival = s.arrival ∧ s.SameElsewhere t

section
variable (s : State) (p : Port) (closing : Bool)

theorem State.loadingIn_singleton (n : PatNo) :
    s.loadingIn p [n] = if (s.entry n).loadedBy p then [n] else [] := by
  simp [State.loadingIn, List.filter_cons]

theorem State.entriesLeftIn_setEntry {n : PatNo} {e : Entry} (he : (s.entry n).left p closing = e)
    (hl : (s.entry n).loadedBy p = false) : s.EntriesLeftIn p closing [n] (s.setEntry n e) := by
  have hnone : s.loadingIn p [n] = [] := by rw [State.loadingIn_singleton, hl]; rfl
  refine ⟨fun m => ?_, by rw [hnone]; rfl, by rw [hnone]; rfl, rfl, rfl, rfl⟩
  by_cases hm : n = m
  · subst hm; simp [he]
  · simp [hm, Ne.symm hm]

theorem State.entriesLeftIn_dropPattern {n : PatNo} {l : Layout} {fill : Nat}
    (h : (s.entry n).body = .loading l fill) (hd : l.definer = some p) :
    s.EntriesLeftIn p closing [n] (s.dropPattern n l (.port p)) := by
  have hloads : s.loadingIn p [n] = [n] := by
    rw [State.loadingIn_singleton, Entry.loadedBy, h, if_pos (decide_eq_true hd)]
  have hleft : (s.entry n).left p closing = Entry.empty := by
    simp only [Entry.left, h, hd, if_true]; rfl
  have hextent : (s.entry n).extent = l.start.map fun start => { start := start, length := l.length } := by
    simp only [Entry.extent, EntryBody.layout, h]
    rfl
  have hdrop : s.dropPattern n l (.port p) =
      { s with
        directory := s.directory.set n Entry.empty
        free := freeAll (s.entry n).extent.toList s.free
        ports := (s.post (.patternState n (.port p))).ports } := by
    rw [hextent]
    unfold State.dropPattern State.freeExtent
    cases l.start <;> rfl
  refine ⟨fun m => ?_, ?_, ?_, by rw [hdrop], by rw [hdrop], by rw [hdrop]; rfl⟩
  · rw [hdrop]
    refine (s.entry_setEntry n m Entry.empty).trans ?_
    by_cases hm : n = m
    · subst hm; simp [hleft]
    · simp [hm, Ne.symm hm]
  · rw [hdrop, hloads, List.filterMap_cons]
    cases (s.entry n).extent <;> rfl
  · rw [hdrop, hloads]
    rfl

/-- An entry that the port does not load only loses its definer, if anything. -/
theorem State.leaveEntry_of_not_loadedBy {n : PatNo} (h : (s.entry n).loadedBy p = false) :
    s.leaveEntry p closing n = s.setEntry n ((s.entry n).left p closing) := by
  have hself : s.setEntry n (s.entry n) = s := by simp [State.setEntry, State.entry]
  have hbody : ∀ b, (s.entry n).body = b → { s.entry n with body := b } = s.entry n := fun b hb => hb ▸ rfl
  unfold State.leaveEntry Entry.left
  cases hb : (s.entry n).body with
  | empty => exact hself.symm
  | loading l fill =>
    have hd : l.definer ≠ some p := by simpa [Entry.loadedBy, hb] using h
    simp [hd, hself]
  | ready l => by_cases hd : l.definer = some p <;> cases closing <;> simp [hd, hself, Layout.leftBy, hbody _ hb]
  | damaged l => by_cases hd : l.definer = some p <;> cases closing <;> simp [hd, hself, Layout.leftBy, hbody _ hb]

theorem State.entriesLeftIn_leaveEntry (n : PatNo) : s.EntriesLeftIn p closing [n] (s.leaveEntry p closing n) := by
  cases hl : (s.entry n).loadedBy p with
  | false =>
    rw [s.leaveEntry_of_not_loadedBy p closing hl]
    exact s.entriesLeftIn_setEntry p closing rfl hl
  | true =>
    cases hb : (s.entry n).body with
    | loading l fill =>
      have hd : l.definer = some p := by simpa [Entry.loadedBy, hb] using hl
      have hleave : s.leaveEntry p closing n = s.dropPattern n l (.port p) := by
        simp only [State.leaveEntry, hb, hd, if_true]
      rw [hleave]
      exact s.entriesLeftIn_dropPattern p closing hb hd
    | empty | ready | damaged => simp [Entry.loadedBy, hb] at hl

/-- Dealing with a number and then with others is dealing with them all. -/
theorem State.EntriesLeftIn.cons {s t u : State} {n : PatNo} {l : List PatNo} (h : s.EntriesLeftIn p closing [n] t)
    (h' : t.EntriesLeftIn p closing l u) (hn : n ∉ l) : s.EntriesLeftIn p closing (n :: l) u := by
  obtain ⟨hentry, hfree, hports, hslots, harrival, hsame⟩ := h
  obtain ⟨hentry', hfree', hports', hslots', harrival', hsame'⟩ := h'
  have hkept : ∀ m, m ≠ n → t.entry m = s.entry m := fun m hm => by simp [hentry, hm]
  have hrest : ∀ m ∈ l, t.entry m = s.entry m := fun m hm => hkept m fun heq => hn (heq ▸ hm)
  have hloading : t.loadingIn p l = s.loadingIn p l := List.filter_congr fun m hm => by rw [hrest m hm]
  have hextents : (s.loadingIn p l).filterMap (fun m => (t.entry m).extent) =
      (s.loadingIn p l).filterMap fun m => (s.entry m).extent :=
    List.filterMap_congr fun m hm => by rw [hrest m (List.mem_of_mem_filter hm)]
  have hsplit : s.loadingIn p (n :: l) = s.loadingIn p [n] ++ s.loadingIn p l :=
    List.filter_append (p := fun m => (s.entry m).loadedBy p) (l₁ := [n]) (l₂ := l)
  refine ⟨fun m => ?_, ?_, ?_, hslots'.trans hslots, harrival'.trans harrival, hsame.trans hsame'⟩
  · rw [hentry']
    by_cases hm : m ∈ l
    · rw [if_pos hm, if_pos (List.mem_cons_of_mem n hm), hrest m hm]
    · rw [if_neg hm, hentry]
      simp [hm]
  · rw [hfree', hfree, hloading, hextents, hsplit, List.filterMap_append, freeAll, freeAll, freeAll, List.foldl_append]
  · rw [hports', hloading, hsplit, List.map_append, List.foldl_append]
    exact State.ports_foldl_post_congr hports _

theorem State.entriesLeftIn_foldl {l : List PatNo} (hl : l.Nodup) :
    s.EntriesLeftIn p closing l (l.foldl (fun t n => t.leaveEntry p closing n) s) := by
  induction l generalizing s with
  | nil => exact ⟨fun _ => rfl, rfl, rfl, rfl, rfl, rfl⟩
  | cons n l ih =>
    obtain ⟨hn, hl⟩ := List.nodup_cons.mp hl
    exact (s.entriesLeftIn_leaveEntry p closing n).cons p closing (ih _ hl) hn

theorem State.entriesLeft_leaveEntries : s.EntriesLeft p closing (s.leaveEntries p closing) := by
  obtain ⟨hentry, hfree, hports, hrest⟩ := s.entriesLeftIn_foldl p closing nodup_userNumbers
  refine ⟨fun n => (hentry n).trans ?_, hfree, hports, hrest⟩
  cases hn : isBuiltIn n with
  | true => rw [if_neg (by simp [mem_userNumbers, hn])]; rfl
  | false => rw [if_pos ((mem_userNumbers n).mpr hn)]; rfl

end

end Sys2Proof.Machine
end


-- ==== Sys2Proof/Proofs/Sessions.lean ====
section
/-! PROOF. The opening and the loss of a session (R25, R26, R127, R128, R132). -/

namespace Sys2Proof.Machine

/-! ### The port at a session change -/

/-- The port as its session opens (R127, steps 1 to 3). -/
def PortState.opening (x : PortState) (c : Params) : PortState :=
  { x.emptyEvents with
    session := .opened, mask := ClassMask.default, attention := true, keepalive := c.keepaliveStart }

theorem FrameFrom.afterEventsEmptied_eq (f : FrameFrom) :
    f.afterEventsEmptied = match f with | .event => .emptied | .overrun _ => .emptied | other => other := by
  cases f <;> rfl

theorem PortState.emptyEvents_transaction (x : PortState) :
    x.emptyEvents.transaction = x.transaction.map Transaction.eventsGone := by
  refine congrFun (congrArg Option.map (funext fun t => ?_)) x.transaction
  rw [Transaction.eventsGone, t.source.afterEventsEmptied_eq] <;> rfl

theorem PortState.opens_opening (x : PortState) (c : Params) : x.Opens c (x.opening c) :=
  ⟨rfl, rfl, rfl, rfl, rfl, rfl, rfl, rfl, rfl, x.emptyEvents_transaction⟩

theorem State.openSession_eq (s : State) (p : Port) :
    s.openSession p = { s with ports := s.ports.set p ((s.port p).opening s.params) } := rfl

/-- The state after the removal of the head request. -/
theorem State.removeRequest_eq {s : State} {p : Port} {r : Request} {rest : List Request} (h : s.Turn p r rest) :
    s.removeRequest p = { s with ports := s.ports.set p { s.port p with inbound := rest }, pointer := p } := by
  obtain ⟨hqueue, _⟩ := h
  rw [State.removeRequest, hqueue]
  rfl

/-- After the removal of the head request, one write of the port is a write on the state before it. -/
theorem State.setPort_removeRequest {s : State} {p : Port} (x : PortState) :
    (s.removeRequest p).setPort p x = { s with ports := s.ports.set p x, pointer := p } := by
  show { (s.setPort p _).setPort p x with pointer := p } = _
  rw [State.setPort_setPort]
  rfl

theorem State.port_removeRequest_self {s : State} {p : Port} {r : Request} {rest : List Request}
    (h : s.Turn p r rest) : (s.removeRequest p).port p = { s.port p with inbound := rest } := by
  rw [State.removeRequest_eq h]
  exact (s.port_setPort p p _).trans (if_pos rfl)

theorem State.openSession_removeRequest {s : State} {p : Port} {r : Request} {rest : List Request}
    (h : s.Turn p r rest) :
    (s.removeRequest p).openSession p =
      { s with ports := s.ports.set p ({ s.port p with inbound := rest }.opening s.params), pointer := p } := by
  rw [← State.port_removeRequest_self h]
  exact s.setPort_removeRequest _

/-! ### Orphaning and adoption (R25, R26) -/

theorem Record.setOrphaned_eq (r : Record) (p : Port) (orphaned : Bool) :
    r.setOrphaned p orphaned = if r.origin = .host p then { r with raiser := .host p orphaned } else r := by
  obtain ⟨raiser⟩ := r
  cases raiser with
  | host q o =>
    by_cases hq : q = p
    · subst hq; simp [Record.setOrphaned, Record.origin, Raiser.origin]
    · simp [Record.setOrphaned, Record.origin, Raiser.origin, hq]
  | internal => rfl

theorem State.slot_setOrphans_parts (s : State) (p : Port) (orphaned : Bool) (i : SlotNo) :
    ((s.setOrphans p orphaned).slot i).generation = (s.slot i).generation ∧
      (s.setOrphans p orphaned).record i =
        (s.record i).map fun q => if q.origin = .host p then { q with raiser := .host p orphaned } else q := by
  refine ⟨by rw [State.setOrphans, State.slot_mapRecords], ?_⟩
  rw [State.setOrphans, State.record_mapRecords]
  exact congrFun (congrArg Option.map (funext fun q => q.setOrphaned_eq p orphaned)) (s.record i)

theorem State.setOrphans_eq (s : State) (p : Port) (orphaned : Bool) :
    s.setOrphans p orphaned = { s with slots := (s.setOrphans p orphaned).slots } := s.mapRecords_eq _

theorem State.params_setOrphans (s : State) (p : Port) (orphaned : Bool) :
    (s.setOrphans p orphaned).params = s.params := by simp only [State.setOrphans, State.mapRecords]

/-! ### HELLO (R127, R128) -/

section
variable {s : State} {p : Port} {r : Request} {rest : List Request}

/-- A HELLO of the right length is served whatever the session. -/
theorem exec_hello (ht : s.Turn p r rest) (hk : kindOf r.kind = some .hello) (hl : r.payload = []) :
    exec .hello s = .next
      ((((s.removeRequest p).helloSession p).post (.portState p .opened (.port p))).answered p r
        [(s.port p).session.code, restartedFlag (s.port p).session, (s.rights p).code]) := by
  refine exec_of_answer (by decide) ht hk ?_
  rw [hl, ← s.removeRequest_session p p]
  rfl

theorem State.helloSession_of_closed (h : (s.port p).session = .closed) : s.helloSession p = s.openSession p := by
  simp only [State.helloSession, h]

theorem State.helloSession_of_lost (h : (s.port p).session = .lost) :
    s.helloSession p = State.arbitrateIf (((s.openSession p).setOrphans p false).internalReturn (portLostSlot p)) := by
  simp only [State.helloSession, h]

theorem State.helloSession_of_opened (h : (s.port p).session = .opened) :
    s.helloSession p = (s.closePort p).openSession p := by
  simp only [State.helloSession, h]

/-- Settles O37. -/
theorem helloOpensSession : Obligations.HelloOpensSession := by
  refine ⟨fun s p r rest ht hk hl hs => ⟨_, PortState.opens_opening _ _, ?_⟩, fun s p r rest lost ht hk hl hs hlost => ?_⟩
  · rw [exec_hello ht hk hl, State.helloSession_of_closed ((s.removeRequest_session p p).trans hs), hs,
      State.openSession_removeRequest ht]
    rfl
  · have hslot : lost = portLostSlot p := Fin.ext hlost
    subst hslot
    refine ⟨_, ((s.removeRequest p).openSession p).setOrphans p false, PortState.opens_opening _ _, fun i => ?_, ?_, ?_⟩
    · exact State.slot_setOrphans_parts _ p false i
    · rw [State.setOrphans_eq, State.openSession_removeRequest ht]
    · dsimp only
      rw [exec_hello ht hk hl, State.helloSession_of_lost ((s.removeRequest_session p p).trans hs), hs]
      rfl

end

/-! ### The loss of a port (R132) -/

theorem exec_keepaliveExpiry_of_due {s : State} {p : Port} (ho : (s.port p).session = .opened)
    (hk : (s.port p).keepalive = some 0) :
    exec (.keepaliveExpiry p) s =
      let s1 := (s.loseSession p).setOrphans p true
      .next (((State.arbitrateIf (s1.internalRaise (portLostSlot p) (s1.portLostFields p))).leaveEntries p false).post
        (.portState p .lost .timer)) :=
  if_pos ⟨ho, hk⟩

/-- Settles O39. -/
theorem keepaliveExpiryLosesPort : Obligations.KeepaliveExpiryLosesPort := by
  refine ⟨fun s p h => if_neg fun ⟨ho, hk⟩ => h.elim (· ho) (· hk), fun s p lost ho hk hlost => ?_⟩
  have hslot : lost = portLostSlot p := Fin.ext hlost
  subst hslot
  have hports : ∀ q, ((s.loseSession p).setOrphans p true).port q = (s.loseSession p).port q :=
    State.port_mapRecords _ _
  have hlosing : ((s.loseSession p).setOrphans p true).port p =
      { (s.port p).emptyQueues with session := .lost, keepalive := none } := by
    rw [hports]; exact (s.port_setPort p p _).trans (if_pos rfl)
  have hfields : ((s.loseSession p).setOrphans p true).portLostFields p = s.portLostFields p := by
    rw [State.portLostFields, State.params_setOrphans]
    rfl
  have hsame : { (s.loseSession p).setOrphans p true with slots := s.slots, ports := s.ports } = s := by
    rw [State.setOrphans_eq, State.loseSession, State.setPort]
  have hexec := exec_keepaliveExpiry_of_due ho hk
  dsimp only at hexec
  rw [hfields] at hexec
  refine ⟨(s.loseSession p).setOrphans p true, _, State.slot_setOrphans_parts _ p true, fun q hq => ?_, ?_, ?_, ?_, ?_, ?_,
    ?_, ?_, ?_, ?_, ?_, hsame, State.entriesLeft_leaveEntries _ p false, hexec⟩
  · exact (hports q).trans ((s.port_setPort p q _).trans (if_neg (Ne.symm hq)))
  all_goals rw [hlosing] <;> rfl

end Sys2Proof.Machine
end


-- ==== Sys2Proof/Proofs/ClosedRecords.lean ====
section
/-! PROOF. The records of a closing port (R24): one record, the fold over the Arrival List, and the two requests that
close a session (R129, R130). -/

namespace Sys2Proof.Machine

/-! ### One record of a closing port -/

/-- What the close of a port makes of a slot (R24). -/
def Slot.closed (x : Slot) (p : Port) : Slot :=
  match x.record with
  | none => x
  | some r =>
    if r.freedAtClose p then { generation := x.generation + 1, record := none }
    else if r.returnedAtClose p then { x with record := some { r with state := .returned, deadline := none } }
    else x

/-- The slot holds a record that the close of the port frees. -/
def Slot.freedAtClose (x : Slot) (p : Port) : Bool := x.record.any (·.freedAtClose p)

theorem State.closeRecord_of_free {s : State} {i : SlotNo} (h : s.record i = none) (p : Port) :
    s.closeRecord p i = s := by
  simp only [State.closeRecord, h]

/-- A closing port frees a record, makes it RETURNED, or leaves it (R24). -/
theorem State.closeRecord_of_record {s : State} {i : SlotNo} {r : Record} (h : s.record i = some r) (p : Port) :
    s.closeRecord p i =
      if r.freedAtClose p then s.freeRecord i (.port p)
      else if r.returnedAtClose p then s.returnRecord i r (.port p) else s := by
  simp only [State.closeRecord, h]
  by_cases ho : r.origin = .host p
  · cases hl : r.latching with
    | false => simp [Record.freedAtClose, ho, hl]
    | true => cases hst : r.state <;> simp [Record.freedAtClose, Record.returnedAtClose, Record.isAlerting, ho, hl, hst]
  · simp [Record.freedAtClose, Record.returnedAtClose, ho]

/-- The event of a close depends on the slot alone (R4, R24). -/
theorem State.closeEvent_congr {s t : State} {i : SlotNo} (h : s.slot i = t.slot i) (p : Port) :
    s.closeEvent p i = t.closeEvent p i := by
  simp only [State.closeEvent, State.record, State.about, h]

/-! ### The records of some slots -/

/-- From s to t the records of the slots of a list have been dealt with, and nothing else. -/
def State.RecordsClosedIn (s : State) (p : Port) (l : List SlotNo) (t : State) : Prop :=
  (∀ j, t.slot j = if j ∈ l then (s.slot j).closed p else s.slot j) ∧
  t.arrival = s.arrival.filter (fun j => decide (j ∉ l) || !(s.slot j).freedAtClose p) ∧
  (∀ n, t.entry n =
    { s.entry n with
      refs := (s.entry n).refs -
        l.countP fun i => (s.record i).any fun r => decide (r.pattern = n) && r.freedAtClose p }) ∧
  t.ports = ((l.filterMap (s.closeEvent p)).foldl State.post s).ports ∧
  t.free = s.free ∧ s.SameElsewhere t

section
variable {s t u : State} {p : Port} {i : SlotNo} {r : Record} {l : List SlotNo}

/-- The record of a slot is left as it is. -/
theorem State.recordsClosedIn_self (h : (s.record i).all fun r => !r.freedAtClose p && !r.returnedAtClose p) :
    s.RecordsClosedIn p [i] s := by
  have hslot : (s.slot i).closed p = s.slot i ∧ (s.slot i).freedAtClose p = false ∧ s.closeEvent p i = none ∧
      ∀ n, ((s.record i).any fun r => decide (r.pattern = n) && r.freedAtClose p) = false := by
    simp only [State.record] at h
    simp only [Slot.closed, Slot.freedAtClose, State.closeEvent, State.record]
    cases hr : (s.slot i).record with
    | none => exact ⟨rfl, rfl, rfl, fun _ => rfl⟩
    | some r =>
      obtain ⟨hf, hret⟩ : r.freedAtClose p = false ∧ r.returnedAtClose p = false := by simpa [hr] using h
      simp [hf, hret]
  obtain ⟨hclosed, hfreed, hevent, hcount⟩ := hslot
  refine ⟨fun j => ?_, (List.filter_eq_self.mpr fun j _ => ?_).symm, fun n => ?_, ?_, rfl, rfl⟩
  · by_cases hj : j = i
    · subst hj; simp [hclosed]
    · simp [hj]
  · by_cases hj : j = i
    · subst hj; simp [hfreed]
    · simp [hj]
  · simp [hcount]
  · simp [hevent]

theorem State.recordsClosedIn_freeRecord (hr : s.record i = some r) (hf : r.freedAtClose p = true)
    (ha : s.arrival.Nodup) : s.RecordsClosedIn p [i] (s.freeRecord i (.port p)) := by
  have hr' : (s.slot i).record = some r := hr
  rw [s.freeRecord_eq i r _ hr]
  refine ⟨fun j => ?_, ?_, fun n => ?_, ?_, rfl, rfl⟩
  · refine (State.slot_setSlot s i j _).trans ?_
    by_cases hj : i = j
    · subst hj; simp [Slot.closed, hr', hf]
    · simp [hj, Ne.symm hj]
  · refine (ha.erase_eq_filter i).trans (List.filter_congr fun j _ => ?_)
    by_cases hj : j = i
    · subst hj; simp [Slot.freedAtClose, hr', hf]
    · simp [hj]
  · refine (State.entry_dropRef s r.pattern n).trans ?_
    by_cases hn : r.pattern = n
    · subst hn; simp [hr, hf]
    · simp [hr, hn]
  · have hevent : s.closeEvent p i = some (.record .freed (s.about i r) (.port p)) := by
      simp [State.closeEvent, hr, hf]
    simp [hevent, State.post]

theorem State.recordsClosedIn_returnRecord (hr : s.record i = some r) (hf : r.freedAtClose p = false)
    (hret : r.returnedAtClose p = true) : s.RecordsClosedIn p [i] (s.returnRecord i r (.port p)) := by
  have hr' : (s.slot i).record = some r := hr
  rw [s.returnRecord_eq i r]
  refine ⟨fun j => ?_, (List.filter_eq_self.mpr fun j _ => ?_).symm, fun n => ?_, ?_, rfl, rfl⟩
  · refine (State.slot_setRecord s i j _).trans ?_
    by_cases hj : i = j
    · subst hj; simp [Slot.closed, hr', hf, hret]
    · simp [hj, Ne.symm hj]
  · by_cases hj : j = i
    · subst hj; simp [Slot.freedAtClose, hr', hf]
    · simp [hj]
  · simp [hr, hf]
  · have hevent : s.closeEvent p i = some (.record .returned (s.about i r) (.port p)) := by
      simp [State.closeEvent, hr, hf, hret]
    rw [List.filterMap_cons, hevent]
    exact State.ports_foldl_post_congr (s := s.setRecord i _) (t := s) rfl [_]

theorem State.recordsClosedIn_closeRecord (ha : s.arrival.Nodup) (p : Port) (i : SlotNo) :
    s.RecordsClosedIn p [i] (s.closeRecord p i) := by
  cases hr : s.record i with
  | none =>
    rw [State.closeRecord_of_free hr]
    exact State.recordsClosedIn_self (by simp [hr])
  | some r =>
    rw [State.closeRecord_of_record hr]
    split
    next hf => exact State.recordsClosedIn_freeRecord hr hf ha
    next hf =>
      have hf := Bool.eq_false_of_not_eq_true hf
      split
      next hret => exact State.recordsClosedIn_returnRecord hr hf hret
      next hret => exact State.recordsClosedIn_self (by simp [hr, hf, hret])

/-- Dealing with a slot and then with others is dealing with them all. -/
theorem State.RecordsClosedIn.cons (h : s.RecordsClosedIn p [i] t) (h' : t.RecordsClosedIn p l u) (hi : i ∉ l) :
    s.RecordsClosedIn p (i :: l) u := by
  obtain ⟨hslot, harrival, hentry, hports, hfree, hsame⟩ := h
  obtain ⟨hslot', harrival', hentry', hports', hfree', hsame'⟩ := h'
  have hkept : ∀ j, j ≠ i → t.slot j = s.slot j := fun j hj => by simp [hslot, hj]
  have hrest : ∀ j ∈ l, t.slot j = s.slot j := fun j hj => hkept j fun heq => hi (heq ▸ hj)
  refine ⟨fun j => ?_, ?_, fun n => ?_, ?_, hfree'.trans hfree, hsame.trans hsame'⟩
  · rw [hslot']
    by_cases hj : j ∈ l
    · rw [if_pos hj, if_pos (List.mem_cons_of_mem i hj), hrest j hj]
    · rw [if_neg hj, hslot]
      simp [hj]
  · rw [harrival', harrival, List.filter_filter]
    refine List.filter_congr fun j _ => ?_
    by_cases hj : j = i
    · simp [hj, hi]
    · simp [hj, hkept j hj]
  · have hcount : ∀ test : Record → Bool,
        l.countP (fun j => (t.record j).any test) = l.countP fun j => (s.record j).any test :=
      fun test => List.countP_congr fun j hj => by simp only [State.record, hrest j hj]
    rw [hentry', hcount, hentry, Nat.sub_sub]
    rw [List.countP_singleton, List.countP_cons, Nat.add_comm]
  · have hevents : l.filterMap (t.closeEvent p) = l.filterMap (s.closeEvent p) :=
      List.filterMap_congr fun j hj => State.closeEvent_congr (hrest j hj) p
    have hsplit : (i :: l).filterMap (s.closeEvent p) =
        [i].filterMap (s.closeEvent p) ++ l.filterMap (s.closeEvent p) :=
      List.filterMap_append (l := [i])
    rw [hports', hevents, hsplit, List.foldl_append]
    exact State.ports_foldl_post_congr hports _

theorem State.recordsClosedIn_foldl (hl : l.Nodup) (ha : s.arrival.Nodup) :
    s.RecordsClosedIn p l (l.foldl (fun t i => t.closeRecord p i) s) := by
  induction l generalizing s with
  | nil => exact ⟨fun _ => rfl, by simp, fun _ => rfl, rfl, rfl, rfl⟩
  | cons i l ih =>
    obtain ⟨hi, hl⟩ := List.nodup_cons.mp hl
    have hone := State.recordsClosedIn_closeRecord ha p i
    have ⟨_, harrival, _⟩ := hone
    exact hone.cons (ih hl (harrival ▸ ha.filter _)) hi

/-- The fold over an exact Arrival List deals with every record of the port (R24). -/
theorem State.ArrivalExact.recordsClosed (h : s.ArrivalExact) (p : Port) : s.RecordsClosed p (s.closeRecords p) := by
  have ⟨hnodup, hmem⟩ := h
  obtain ⟨hslot, harrival, hentry, hrest⟩ := State.recordsClosedIn_foldl (p := p) hnodup hnodup
  refine ⟨fun i => (hslot i).trans ?_, harrival.trans (List.filter_congr fun i hi => ?_),
    fun n => (hentry n).trans ?_, hrest⟩
  · cases hr : s.record i with
    | none => rw [if_neg (by simp [hmem, hr])]
    | some r =>
      have hr' : (s.slot i).record = some r := hr
      rw [if_pos (by simp [hmem, hr])]
      simp only [Slot.closed, hr']
  · cases hr : (s.slot i).record <;> simp [hi, Slot.freedAtClose, State.record, hr]
  · rw [h.countP_eq]
    rfl

end

/-! ### BYE, and HELLO on an OPEN port (R129, R130) -/

/-- The port as its session closes (R130, steps 1 to 3). -/
def PortState.closing (x : PortState) : PortState := { x.emptyEvents with session := .closed, keepalive := none }

theorem PortState.closes_closing (x : PortState) : x.Closes x.closing :=
  ⟨rfl, rfl, rfl, rfl, rfl, rfl, rfl, rfl, rfl, x.emptyEvents_transaction⟩

section
variable {s : State} {p : Port} {r : Request} {rest : List Request}

theorem State.closeSession_removeRequest (h : s.Turn p r rest) :
    (s.removeRequest p).closeSession p =
      { s with ports := s.ports.set p { s.port p with inbound := rest }.closing, pointer := p } := by
  rw [← State.port_removeRequest_self h]
  exact s.setPort_removeRequest _

/-- A BYE from an OPEN port. -/
theorem exec_bye (h : s.Taking .bye p r rest) :
    exec .bye s = .next
      ((((s.removeRequest p).closePort p).post (.portState p .closed (.port p))).answered p r []) :=
  h.served (by decide) (h.gate_any _)

/-- Settles O38. -/
theorem byeClosesAndHelloRestarts : Obligations.ByeClosesAndHelloRestarts := by
  intro s p r rest hexact ht hl ho
  have hclosed := State.closeSession_removeRequest ht
  have hexact' : ((s.removeRequest p).closeSession p).ArrivalExact := by rw [hclosed]; exact hexact
  have hopen : ((s.removeRequest p).port p).session = .opened := (s.removeRequest_session p p).trans ho
  have hparams : ((s.removeRequest p).closePort p).params = s.params :=
    (Quiets.acts (quiets_closePort (s.removeRequest p) (by rw [hopen]; nofun))).frame.params
  refine ⟨_, _, ((s.removeRequest p).closeSession p).closeRecords p, (s.removeRequest p).closePort p,
    PortState.closes_closing _, hclosed ▸ hexact'.recordsClosed p, State.entriesLeft_leaveEntries _ p true,
    PortState.opens_opening _ _, fun hk => ?_, fun hk => ?_⟩
  · exact exec_bye ⟨ht, hk, by rw [hl]; rfl, ho⟩
  · rw [exec_hello ht hk hl, State.helloSession_of_opened hopen, ho, State.openSession_eq, hparams]
    rfl

end

end Sys2Proof.Machine
end


-- ==== Sys2Proof/Proofs/ResetEnd.lean ====
section
/-! PROOF. The end of a reset (R27, R138, R157): the parameters, and the STORE_FAULT of a kept DAMAGED pattern, which
starts from IDLE. -/

namespace Sys2Proof.Machine

section
variable {s : State}

/-! ### The lowest DAMAGED number -/

theorem State.damagedNumbers_eq_nil (h : ∀ n, isBuiltIn n = false → (s.entry n).body.isDamaged = false) :
    s.damagedNumbers = [] := by
  refine List.eq_nil_iff_forall_not_mem.mpr fun n hn => ?_
  obtain ⟨huser, hdamaged⟩ := (mem_damagedNumbers s n).mp hn
  exact absurd hdamaged (by rw [h n huser]; decide)

theorem State.damagedNumbers_of_lowest {n : PatNo} (hu : isBuiltIn n = false)
    (hd : (s.entry n).body.isDamaged = true) (hlow : ∀ m, m < n → (s.entry m).body.isDamaged = false) :
    ∃ others, s.damagedNumbers = n :: others := by
  have hhead : s.damagedNumbers.head? = some n := by
    rw [State.damagedNumbers, userNumbers, List.filter_filter, List.head?_filter]
    exact find?_finRange_eq_some (by simp [hu, hd]) fun m hm => by simp [hlow m hm]
  exact List.head?_eq_some_iff.mp hhead

/-! ### The end of the reset -/

theorem exec_resetEnd_of_none {prof1 prof0 : Level} (h : s.inReset = true)
    (hd : (s.leaveReset prof1 prof0).damagedNumbers = []) :
    exec (.resetEnd prof1 prof0) s = .next (s.leaveReset prof1 prof0) := by
  change execResetEnd prof1 prof0 s = _
  simp only [execResetEnd, h, if_true, hd]

theorem exec_resetEnd_of_damaged {prof1 prof0 : Level} {n : PatNo} {others : List PatNo} (h : s.inReset = true)
    (hd : (s.leaveReset prof1 prof0).damagedNumbers = n :: others) :
    exec (.resetEnd prof1 prof0) s =
      .next (State.arbitrateIf ((s.leaveReset prof1 prof0).internalRaise 29
        ((s.leaveReset prof1 prof0).storeFaultFields n))) := by
  change execResetEnd prof1 prof0 s = _
  simp only [execResetEnd, h, if_true, hd, storeFaultSlot]

/-! ### The STORE_FAULT that starts (R27, R48) -/

/-- Where no port is OPEN, an event goes to no queue. -/
theorem State.post_of_none_opened (h : ∀ p, (s.port p).session ≠ .opened) (e : Event) : s.post e = s := by
  have hports : Vector.ofFn (fun p : Port => (s.port p).offer p e) = s.ports := by
    refine Vector.ext fun k hk => ?_
    rw [Vector.getElem_ofFn]
    refine PortState.offer_of_not_taken fun ⟨hoffered, _⟩ => ?_
    exact h ⟨k, hk⟩ (((PortState.offered_iff _ _ _).mp hoffered).1)
  rw [State.post, hports]

/-- With one record on the Arrival List, the Sounding Order is that record. -/
theorem State.order_of_one {i : SlotNo} (ha : s.arrival = [i]) (he : s.eligible i = true) : s.order = [i] := by
  simp [State.order, ha, he, insertRanked]

/-- The state with a record as its one record, its pattern's reference count raised. -/
def State.withRecord (s : State) (i : SlotNo) (q : Record) : State :=
  { s with
    slots := s.slots.set i { s.slot i with record := some q }
    arrival := [i]
    directory := s.directory.set q.pattern { s.entry q.pattern with refs := (s.entry q.pattern).refs + 1 } }

theorem State.slot_withRecord (i j : SlotNo) (q : Record) :
    (s.withRecord i q).slot j = if i = j then { s.slot i with record := some q } else s.slot j :=
  s.slot_setSlot i j _

theorem State.entry_withRecord (i : SlotNo) (q : Record) (n : PatNo) :
    (s.withRecord i q).entry n =
      if q.pattern = n then { s.entry q.pattern with refs := (s.entry q.pattern).refs + 1 } else s.entry n :=
  s.entry_setEntry q.pattern n _

/-- An internal raise into an empty table, with no port OPEN. -/
theorem State.internalRaise_of_empty {i : SlotNo} (hr : s.record i = none) (ha : s.arrival = [])
    (hp : ∀ p, (s.port p).session ≠ .opened) (f : RaiseFields) :
    s.internalRaise i f = (s.withRecord i (f.asRecord .internal), true) := by
  rw [State.internalRaise_of_free hr, State.createRecord_eq, State.post_of_none_opened, ha]
  · rfl
  · exact hp

/-- A record on pattern 31, alone in the table, starts from IDLE: its first step is 16, level 2, for 200 ms. -/
theorem State.arbitrate_withRecord {i : SlotNo} {q : Record} (hidle : s.play = .idle)
    (hp : ∀ p, (s.port p).session ≠ .opened) (hb : s.BuiltInsStand) (hq : q.pattern = 31) (he : q.eligible = true)
    (hintro : q.introDone = false) :
    (s.withRecord i q).arbitrate .byRelease =
      (s.withRecord i q).setPlay
        (.playing { slot := i, generation := (s.slot i).generation }
          { pattern := 31, index := 0, timeLeft := 200, tone := 16, level := 2 }) := by
  have hslot : (s.withRecord i q).slot i = { s.slot i with record := some q } :=
    (s.slot_withRecord i i q).trans (if_pos rfl)
  have hrecord : (s.withRecord i q).record i = some q := congrArg Slot.record hslot
  have horder : (s.withRecord i q).order = [i] :=
    State.order_of_one rfl (by rw [State.eligible, hrecord]; exact he)
  have hbody : ((s.withRecord i q).entry q.pattern).body =
      .ready { definer := none, start := none, length := 3, loopIndex := 0, pace := 2 } := by
    rw [State.entry_withRecord, if_pos rfl, hq]
    exact hb 31 rfl
  obtain ⟨hstarts, _⟩ := tenureStarts (s.withRecord i q) i [] q _ .byRelease hidle horder hrecord
  have hstart := hstarts { tone := 16, level := 2, units := 10 } hbody (by rw [hq, hintro]; rfl)
  rw [hstart, State.post_of_none_opened, hq, hintro, hslot]
  · rfl
  · intro p
    rw [State.port_setPlay]
    exact hp p


end

/-- Settles O4. -/
theorem resetEndsWithDefaults : Obligations.ResetEndsWithDefaults := by
  refine ⟨fun s prof1 prof0 h => ?_, fun s prof1 prof0 h hd => ?_,
    fun s prof1 prof0 n h hu hd hlow hfree ha hidle hline hclosed hb => ?_⟩
  · change execResetEnd prof1 prof0 s = _
    rw [execResetEnd, h]
    rfl
  · rw [exec_resetEnd_of_none h (State.damagedNumbers_eq_nil hd)]
    cases prof1 <;> cases prof0 <;> rfl
  · obtain ⟨others, hothers⟩ := State.damagedNumbers_of_lowest (s := s.leaveReset prof1 prof0) hu hd hlow
    have hp : ∀ p, ((s.leaveReset prof1 prof0).port p).session ≠ .opened := fun p => by
      show (s.port p).session ≠ .opened
      rw [hclosed p]; nofun
    have hraise := State.internalRaise_of_empty (s := s.leaveReset prof1 prof0) (i := 29)
      (hfree 29) ha hp ((s.leaveReset prof1 prof0).storeFaultFields n)
    refine ⟨_, exec_resetEnd_of_damaged h hothers, ?_⟩
    rw [hraise, State.arbitrateIf, if_pos rfl]
    dsimp only
    rw [State.arbitrate_withRecord (s := s.leaveReset prof1 prof0) hidle hp hb rfl rfl rfl]
    refine ⟨?_, fun i hi => ?_, ?_, ?_, ?_, ?_, ?_, fun m => ?_, fun p => ?_, ?_, ?_, ?_⟩
    · rw [State.record, State.slot_setPlay, State.slot_withRecord, if_pos rfl]; rfl
    · rw [State.slot_setPlay, State.slot_withRecord, if_neg (Ne.symm hi)]; rfl
    · rw [State.slot_setPlay, State.slot_withRecord, if_pos rfl]; rfl
    · rw [State.setPlay_arrival]; rfl
    · rw [State.order_setPlay]
      refine State.order_of_one rfl ?_
      rw [State.eligible, State.record, State.slot_withRecord, if_pos rfl]; rfl
    · rw [State.setPlay_play]; rfl
    · rw [State.setPlay_drive]
      have hshort : s.line.isShort = false := by rw [hline]; rfl
      exact wantedDrive_eq_some (now := { pattern := 31, index := 0, timeLeft := 200, tone := 16, level := 2 }) rfl
        (by decide) hshort
    · rw [State.entry_setPlay, State.entry_withRecord]
      exact if_congr eq_comm rfl rfl
    · rw [State.port_setPlay]; rfl
    · rw [State.setPlay_params]
      cases prof1 <;> cases prof0 <;> rfl
    · rw [State.setPlay_lineTimer]; rfl
    · rw [State.setPlay_inReset]; rfl

end Sys2Proof.Machine
end
